-- ==== Sys2Proof/Word.lean ====
section
/-! DEFINITION. The word and byte types of the block (spec/00_scope.md rules R9, R11, R12). -/

namespace Sys2Proof

/-- A byte is 8 bits (R12). -/
abbrev Byte := BitVec 8

/-- A data-path register: `XLEN = 32` bits, unsigned (R9, decision D3). -/
abbrev Word := BitVec 32

/-- A command word (R92). -/
abbrev CmdWord := BitVec 64

/-- `zeros(n)`: `n` bytes of `0x00` (R12); silence is made of these (R14). -/
abbrev zeros (n : Nat) : List Byte := List.replicate n 0#8

end Sys2Proof
end

