-- ==== Sys2Proof/Config.lean ====
section
/-! DEFINITION. The implementation parameters of spec/00_scope.md rule R9, the test configuration of rule R10, and the
allocator's answer, which the block does not choose (spec/40_lifecycle.md rule R121). -/

namespace Sys2Proof

/-- The named parameters of rule R9. `XLEN` is fixed at 32 by decision D3 and is the width of `Word`.
A state carries the parameters it runs under, so a statement about every state holds for every choice of them. -/
structure Config where
  /-- `BUF_SECONDS`: seconds of audio the storage holds. -/
  bufSeconds : Nat
  /-- `STORAGE_MAX`: largest storage region, in bytes, the allocator can ever grant. -/
  storageMax : Nat
  /-- `FRAME_MAX`: largest scratch region, in bytes, the allocator can ever grant. -/
  frameMax : Nat
  /-- `EXT_MAX`: largest extension payload of a descriptor, in bytes. -/
  extMax : Nat
  /-- `CONV_PAIRS`: the (source bits, destination bits) pairs of the Sample Converter. -/
  convPairs : List (Nat × Nat)
  /-- `NPORTS`: number of request ports. -/
  nports : Nat
  /-- `TAG_PCM`: the plain PCM tag. -/
  tagPcm : BitVec 16
  /-- `TAG_EXT`: the extensible tag. -/
  tagExt : BitVec 16
  /-- `SPEC_A`: the first recognised format specifier. -/
  specA : BitVec 2
  /-- `SPEC_B`: the second recognised format specifier. -/
  specB : BitVec 2
deriving DecidableEq, Repr

/-- The constraints rule R9 puts on the parameters. -/
abbrev Config.Legal (c : Config) : Prop :=
  2 ≤ c.bufSeconds ∧ c.storageMax ≤ 2 ^ 32 - 1 ∧ c.frameMax ≤ c.storageMax ∧ c.extMax ≤ 65535 ∧
    (16, 32) ∈ c.convPairs ∧ (∀ p ∈ c.convPairs, p.1 ≤ p.2 ∧ p.1 % 8 = 0 ∧ p.2 % 8 = 0) ∧
    1 ≤ c.nports ∧ c.tagExt ≠ c.tagPcm ∧ c.specA ≠ c.specB

/-- The test configuration `T8` of rule R10. -/
def Config.T8 : Config where
  bufSeconds := 2
  storageMax := 1048576
  frameMax := 4096
  extMax := 22
  convPairs := [(16, 32)]
  nports := 3
  tagPcm := 0x0001
  tagExt := 0xFFFE
  specA := 1
  specB := 2

/-- The allocator's answer to the block's `n`-th request: a free value (R121, 93 U3). It has no body, so nothing can
be proved of it. Log entry 2. -/
opaque Config.allocatorAnswer : Nat → Bool

end Sys2Proof
end

