-- ==== Sys2Proof/Syntax.lean ====
section
/-! DEFINITION. The five commands with their operands (spec/30_encoding.md rules R93, R94, R96). -/

namespace Sys2Proof

/-- A descriptor record (R96): four 32-bit words, kept bit for bit as received, and the opaque extension `EXT`.
The fields within the words are read by the accessors of Machine/Operands.lean. -/
structure Descriptor where
  w0 : Word
  w1 : Word
  w2 : Word
  w3 : Word
  ext : List Byte
deriving DecidableEq, Repr, Inhabited

/-- The descriptor of all zero bits with an empty `EXT`: the reset value of `FMT_IN` and `FMT_OUT` (R31, R32). -/
def Descriptor.zero : Descriptor := ⟨0#32, 0#32, 0#32, 0#32, []⟩

/-- A request as a port presents it: the command word and its payload in stream order (R90, R105). -/
structure Request where
  word : CmdWord
  payload : List Byte
deriving DecidableEq, Repr, Inhabited

/-- The five commands. A null operand (`PV = 0`) is `none` (R94, R98). -/
inductive Instr where
  /-- `INIT_IN`, with the input format descriptor or null (R120). -/
  | initIn (desc : Option Descriptor)
  /-- `INIT_OUT`, with the output format descriptor or null (R125). -/
  | initOut (desc : Option Descriptor)
  /-- `WRITE`, with `LEN` and the payload `in` or null (R150). -/
  | write (len : Word) (bytes : Option (List Byte))
  /-- `READ`, with `LEN` (R170). -/
  | read (len : Word)
  /-- `RESET`, without operand (R130). -/
  | reset
deriving DecidableEq, Repr, Inhabited

end Sys2Proof
end

