-- ==== Sys2Proof/Machine/State.lean ====
section
/-! DEFINITION. The state of the block (spec/10_state.md rule R20) as plain data, the reasons a step can stop, and the state
after hardware reset (spec/10_state.md rule R51). -/

namespace Sys2Proof.Machine

/-- The three memories (R13, R40 to R42). -/
inductive Space where
  | storage | pfi | pfo
deriving DecidableEq, Repr

/-- A memory: the bytes that are not `0x00`, by rising address. An address that is not listed reads `0x00`, the fill of a
newly granted region (R40 to R42, decision D6). -/
abbrev Memory := List Host.Cell

/-- Why a command failed (spec/30_encoding.md rule R101). -/
inductive Cause where
  | invalidArgument | allocationFailure | alreadyInitialized | uninitialized | illegalCommand | fault
deriving DecidableEq, Repr

/-- The two faults of `READ` (spec/60_exceptions.md rule R223). They are next states, not stops of the machine. -/
inductive FaultCode where
  /-- `F_NOOUT`: a frame must be converted and the output side is not configured. -/
  | noOut
  /-- `F_CONV`: a frame must be converted between formats the Sample Converter does not implement. -/
  | conv
deriving DecidableEq, Repr

/-- A response: the response word (R100) and the data bytes of a successful `READ` (R102). -/
structure Response where
  word : Word
  data : List Byte
deriving DecidableEq, Repr, Inhabited

/-- `PORT[p].PHASE` with what is latched in it (R48). -/
inductive Phase where
  | idle
  | waiting (req : Request)
  | holding (req : Request)
  | responding (resp : Response)
deriving DecidableEq, Repr

/-- What the block hands to the outside: a response (spec/43_guard.md rule R211), a status-window word (R35), and the
allocate and free events (spec/40_lifecycle.md rule R134). -/
inductive Output where
  | response (port : Nat) (resp : Response)
  | windowWord (n : Fin 18) (word : Word)
  | alloc (space : Space) (size : Nat)
  | free (space : Space)
deriving DecidableEq, Repr

/-- One move of an agent (spec/43_guard.md rule R211, spec/70_reset_and_hazards.md rule R240, spec/10_state.md rule R35). -/
inductive Move where
  /-- A port presents a request. -/
  | present (port : Nat) (req : Request)
  /-- A waiting port tries to acquire the guard. -/
  | tryAcquire (port : Nat)
  /-- The body of the command that holds the guard runs and releases it. -/
  | runBody
  /-- The response of a port is handed over. -/
  | handOver (port : Nat)
  /-- The platform resets the block. -/
  | hardReset
  /-- A test bench reads word `n` of the status window. -/
  | readWindow (n : Fin 18)
  /-- A test bench writes word `n` of the status window. -/
  | writeWindow (n : Fin 18) (value : Word)
deriving DecidableEq, Repr, Inhabited

/-- Why the machine stops with a fault. None is reached from a state that meets `State.Legal` (Safety.lean): the spec
shows that its primitives stay in range. Each is safe: a stop claims nothing of the hardware. -/
inductive Fault where
  /-- `MemRead` or `MemWrite` past the current size of a memory (R13). Raised by `WRITE` and `READ`. Safe. -/
  | outsideRegion (space : Space)
  /-- `div` or `mod` by zero (R11, R45). Raised by `WRITE` and `READ`. Safe. -/
  | zeroDivisor
  /-- A scratch offset below zero: more bytes pending than a frame has (R23, R24). Raised by `WRITE` and `READ`. Safe. -/
  | negativeOffset
deriving DecidableEq, Repr

/-- Why the machine refuses a move. Each is safe: a refusal claims nothing of the hardware. -/
inductive Refusal where
  /-- An instruction without a meaning. Raised by no arm of `exec`. Safe. -/
  | notModelled (mnemonic : String)
  /-- A move of a port that does not exist (R90). Raised by the environment's moves. Safe. -/
  | noSuchPort
  /-- A port presents a second request, or other than the bytes the command word implies (93 U15). Raised by
  `Move.present`. Safe. -/
  | portProtocol
  /-- A move that rule R211 does not have in this state. Raised by `Move.tryAcquire`, `Move.runBody` and
  `Move.handOver`. Safe. -/
  | moveNotEnabled
  /-- The guard's owner holds a request that does not decode. Raised by `Move.runBody`, in no state that a run reaches.
  Safe. -/
  | illegalLatched
deriving DecidableEq, Repr

/-- The state of the block. The last six fields are the model's own: the parameters, and what the block's environment has
chosen and seen. -/
structure State where
  /-- `writeFrameId` (R21). -/
  writeFrameId : Word
  /-- `readFrameId` (R22). -/
  readFrameId : Word
  /-- `partialBytesIn` (R23). -/
  partialBytesIn : Word
  /-- `partialBytesOut` (R24). -/
  partialBytesOut : Word
  /-- `frameSizeIn` (R25). -/
  frameSizeIn : Word
  /-- `frameSizeOut` (R26). -/
  frameSizeOut : Word
  /-- `numFrames` (R27). -/
  numFrames : Word
  /-- `CAPACITY` (R28). -/
  capacity : Word
  /-- `FMT_IN` (R31). -/
  fmtIn : Descriptor
  /-- `FMT_OUT` (R32). -/
  fmtOut : Descriptor
  /-- `LIVE_STORAGE` (R30). -/
  liveStorage : Bool
  /-- `LIVE_PFI` (R30). -/
  livePfi : Bool
  /-- `LIVE_PFO` (R30). -/
  livePfo : Bool
  /-- `STORAGE` (R40). -/
  storage : Memory
  /-- `PFI` (R41). -/
  pfi : Memory
  /-- `PFO` (R42). -/
  pfo : Memory
  /-- `FAULT` (R33). -/
  fault : BitVec 8
  /-- `LOCK` (R47). -/
  lock : Bool
  /-- `OWNER` (R47). -/
  owner : Nat
  /-- `PORT[p].PHASE` for each port (R48). -/
  ports : List Phase
  /-- The parameters of rule R9. Log entry 4. -/
  cfg : Config
  /-- The moves the environment has already chosen, oldest first. Log entry 3. -/
  schedule : List Move
  /-- How many moves have been taken. Log entry 3. -/
  moves : Nat
  /-- The allocator's answers the environment has already chosen, oldest first. Log entry 2. -/
  grants : List Bool
  /-- How many answers have been drawn. Log entry 2. -/
  draws : Nat
  /-- What the block has handed to the outside, oldest first. Log entry 12. -/
  trace : List Output
deriving DecidableEq, Repr

/-- The state after hardware reset under given parameters (R51): every register zero, the memories empty, every port
idle. The value of `OWNER` is the model's choice: log entry 1. -/
def State.resetWith (c : Config) : State where
  writeFrameId := 0#32
  readFrameId := 0#32
  partialBytesIn := 0#32
  partialBytesOut := 0#32
  frameSizeIn := 0#32
  frameSizeOut := 0#32
  numFrames := 0#32
  capacity := 0#32
  fmtIn := Descriptor.zero
  fmtOut := Descriptor.zero
  liveStorage := false
  livePfi := false
  livePfo := false
  storage := []
  pfi := []
  pfo := []
  fault := 0#8
  lock := false
  owner := 0
  ports := List.replicate c.nports .idle
  cfg := c
  schedule := []
  moves := 0
  grants := []
  draws := 0
  trace := []

/-- The state after hardware reset (R51) under the test configuration `T8` (R10). Log entry 4. -/
def State.reset : State := State.resetWith Config.T8

end Sys2Proof.Machine

namespace Sys2Proof

/-- The environment's `n`-th move where no schedule says it: which agent moves next and with which request is a free
value (spec/43_guard.md rule R202, spec/93_implementation_defined.md U2). It has no body, so nothing can be proved of
it. Log entry 3. -/
opaque Config.environment : Nat → Machine.Move

end Sys2Proof
end

