-- ==== Sys2Proof/Machine/Flags.lean ====
section
/-! DEFINITION. The `FAULT` register and the response word (spec/10_state.md rules R33, R36, spec/30_encoding.md rules R100, R101).
The block has no condition codes (R36). -/

namespace Sys2Proof.Machine

/-- The `CAUSE` codes (R101). -/
def causeCode : Cause → BitVec 4
  | .invalidArgument => 1
  | .allocationFailure => 2
  | .alreadyInitialized => 3
  | .uninitialized => 4
  | .illegalCommand => 5
  | .fault => 6

/-- The bit of `FAULT` a fault sets (R33, R223). -/
def faultBit : FaultCode → BitVec 8
  | .noOut => 0x01
  | .conv => 0x02

/-- `raise Fault` sets its bit and keeps the others: the register is sticky (R33, R222). -/
def setFaultBit (fault : BitVec 8) (code : FaultCode) : BitVec 8 :=
  fault ||| faultBit code

/-- The response word: `OK` in bit 0, `CAUSE` in bits 7:4, `FAULTS` in bits 15:8, the rest zero (R100). -/
def responseWord (ok : Bool) (cause : BitVec 4) (faults : BitVec 8) : Word :=
  (0#16 ++ faults ++ cause ++ 0#3 ++ BitVec.ofBool ok : BitVec (16 + 8 + 4 + 3 + 1)).cast rfl

/-- The response of a command that succeeds, with the data bytes of a `READ` (R100, R102). -/
def okResponse (faults : BitVec 8) (data : List Byte) : Response :=
  ⟨responseWord true 0#4 faults, data⟩

/-- The response of a command that fails (R100 to R102). -/
def failResponse (cause : Cause) (faults : BitVec 8) : Response :=
  ⟨responseWord false (causeCode cause) faults, []⟩

end Sys2Proof.Machine
end

