-- ==== Sys2Proof/Machine/Operands.lean ====
section
/-! DEFINITION. Bytes as integers (spec/00_scope.md rule R12, spec/20_memory.md rule R60) and the fields of a descriptor
record (spec/30_encoding.md rule R96). -/

namespace Sys2Proof

/-- `le_uint(B)`, the sum of `B[i] * 256^i` (R12). -/
def leUint : List Byte → Nat
  | [] => 0
  | b :: bs => b.toNat + 256 * leUint bs

/-- `le_sint(B)`: the same bytes read as a two's complement integer of `8 * len(B)` bits (R12). -/
def leSint (bs : List Byte) : Int :=
  (BitVec.ofNat (8 * bs.length) (leUint bs)).toInt

/-- `le_bytes_n(v)`: the low `n` bytes of the two's complement of `v`, least significant first (R12). -/
def leBytes : Nat → Int → List Byte
  | 0, _ => []
  | n + 1, v => BitVec.ofInt 8 v :: leBytes n (v / 256)

/-- The bytes `A[a .. a+n)` of a byte array (R12). -/
def slice (bs : List Byte) (a n : Nat) : List Byte :=
  (bs.drop a).take n

/-- `TAG`, `W0[15:0]` (R96). -/
def Descriptor.tag (d : Descriptor) : BitVec 16 := d.w0.extractLsb' 0 16

/-- `SPEC`, `W0[17:16]` (R96). -/
def Descriptor.spec (d : Descriptor) : BitVec 2 := d.w0.extractLsb' 16 2

/-- `SUBPCM`, `W0[18]` (R96). -/
def Descriptor.subpcm (d : Descriptor) : Bool := d.w0.getLsbD 18

/-- `CHANNELS`, `W1[15:0]` (R96). -/
def Descriptor.channels (d : Descriptor) : BitVec 16 := d.w1.extractLsb' 0 16

/-- `BITS`, `W1[31:16]` (R96). -/
def Descriptor.bits (d : Descriptor) : BitVec 16 := d.w1.extractLsb' 16 16

/-- `RATE`, `W2` (R96). -/
def Descriptor.rate (d : Descriptor) : Word := d.w2

/-- `EXT_LEN`, `W3[15:0]` (R96). -/
def Descriptor.extLen (d : Descriptor) : BitVec 16 := d.w3.extractLsb' 0 16

/-- Bytes per frame, `CHANNELS * (BITS div 8)` (R25, R26, decision D36). -/
def Descriptor.frameSize (d : Descriptor) : Nat :=
  d.channels.toNat * (d.bits.toNat / 8)

/-- `InputFormatValid(desc)` (R122). `TAG` and `SUBPCM` are not tested. -/
def inputFormatValid (c : Config) (d : Descriptor) : Bool :=
  (d.spec == c.specA || d.spec == c.specB) && decide (1 ≤ d.channels.toNat) &&
    decide (8 ≤ d.bits.toNat) && decide (d.bits.toNat % 8 = 0) && decide (1 ≤ d.rate.toNat)

/-- `OutputFormatValid(desc)` (R126). `SPEC` and `RATE` are not tested. -/
def outputFormatValid (c : Config) (d : Descriptor) : Bool :=
  (d.tag == c.tagPcm || (d.tag == c.tagExt && d.subpcm)) && decide (1 ≤ d.channels.toNat) &&
    decide (8 ≤ d.bits.toNat) && decide (d.bits.toNat % 8 = 0)

/-- `C = BUF_SECONDS * RATE * fs` (R120 line 5, R123). -/
def capacityFor (c : Config) (d : Descriptor) : Nat :=
  c.bufSeconds * d.rate.toNat * d.frameSize

/-- `ConvertSample(v)` for the pair `(s, d)`: `v * 2^(d - s)` (R177, R178). -/
def convertSample (s d : Nat) (v : Int) : Int :=
  v * 2 ^ (d - s)

/-- `ConvertFrame(F)` from the input format `fi` to the output format `fo`, channel by channel (R176). -/
def convertFrame (fi fo : Descriptor) (f : List Byte) : List Byte :=
  (List.range fi.channels.toNat).flatMap fun c =>
    leBytes (fo.bits.toNat / 8)
      (convertSample fi.bits.toNat fo.bits.toNat
        (leSint (slice f (c * (fi.bits.toNat / 8)) (fi.bits.toNat / 8))))

end Sys2Proof
end

