-- ==== Sys2Proof/Machine/Ops.lean ====
section
/-! DEFINITION. The shared operations: memory, the ends of a command (success, failure, fault), the allocator and the
cursors. -/

namespace Sys2Proof.Machine

/-- What a meaning answers. -/
abbrev Result := Host.Outcome State Fault Refusal

/-! ### Memory (spec/00_scope.md rule R13, spec/10_state.md rules R40 to R42) -/

/-- One byte. An address that is not listed reads `0x00`. -/
def Memory.read : Memory → Nat → Byte
  | [], _ => 0#8
  | (k, b) :: m, a => if k = a then b else Memory.read m a

/-- Writing one byte keeps the list rising and free of zero bytes. -/
def Memory.write : Memory → Nat → Byte → Memory
  | [], a, v => if v = 0#8 then [] else [(a, v)]
  | (k, b) :: m, a, v =>
    if a < k then (if v = 0#8 then (k, b) :: m else (a, v) :: (k, b) :: m)
    else if a = k then (if v = 0#8 then m else (a, v) :: m)
    else (k, b) :: Memory.write m a v

/-- `n` bytes from address `a` upward. -/
def Memory.readBytes (m : Memory) : Nat → Nat → List Byte
  | _, 0 => []
  | a, n + 1 => Memory.read m a :: Memory.readBytes m (a + 1) n

/-- A byte array stored from address `a` upward. -/
def Memory.writeBytes (m : Memory) : Nat → List Byte → Memory
  | _, [] => m
  | a, b :: bs => Memory.writeBytes (Memory.write m a b) (a + 1) bs

/-- Every address of the list is at least `lo`, addresses rise strictly, and no byte is `0x00`. -/
def Memory.wfFrom : Nat → Memory → Bool
  | _, [] => true
  | lo, (k, b) :: m => decide (lo ≤ k) && decide (b ≠ 0#8) && Memory.wfFrom (k + 1) m

/-- The canonical form: equal memories are equal lists. -/
def Memory.wf (m : Memory) : Bool := Memory.wfFrom 0 m

/-- Every listed address is below `size`. -/
def Memory.within (size : Nat) (m : Memory) : Bool := m.all fun c => decide (c.1 < size)

/-- The contents of a memory. -/
def State.region (s : State) : Space → Memory
  | .storage => s.storage
  | .pfi => s.pfi
  | .pfo => s.pfo

/-- The current size of a memory: zero while the block does not own it (R40 to R42). -/
def State.regionSize (s : State) : Space → Nat
  | .storage => if s.liveStorage then s.capacity.toNat else 0
  | .pfi => if s.livePfi then s.frameSizeIn.toNat else 0
  | .pfo => if s.livePfo then s.frameSizeOut.toNat else 0

/-- The state with other contents of one memory. -/
def State.setRegion (s : State) (sp : Space) (m : Memory) : State :=
  match sp with
  | .storage => { s with storage := m }
  | .pfi => { s with pfi := m }
  | .pfo => { s with pfo := m }

/-- `MemRead(SPACE, addr, n)` (R13). Outside the current size it has no meaning: log entry 7. -/
def memRead (s : State) (sp : Space) (a n : Nat) : Except Fault (List Byte) :=
  if a + n ≤ s.regionSize sp then .ok (Memory.readBytes (s.region sp) a n)
  else .error (.outsideRegion sp)

/-- `MemWrite(SPACE, addr, n, B)` with `n = len(B)` (R13). Outside the current size it has no meaning: log entry 7. -/
def memWrite (s : State) (sp : Space) (a : Nat) (bs : List Byte) : Except Fault State :=
  if a + bs.length ≤ s.regionSize sp then .ok (s.setRegion sp (Memory.writeBytes (s.region sp) a bs))
  else .error (.outsideRegion sp)

/-! ### The ends of a command (spec/43_guard.md rule R205, spec/60_exceptions.md rules R215, R222) -/

/-- The phase of one port. -/
def State.setPort (s : State) (p : Nat) (ph : Phase) : State :=
  { s with ports := s.ports.set p ph }

/-- The release of the guard: `LOCK <- 0` and the owner's port responds (R205). -/
def State.respond (s : State) (r : Response) : State :=
  { s with lock := false, ports := s.ports.set s.owner (.responding r) }

/-- `succeed`: `OK = 1`, `CAUSE = 0` (R13), with the data bytes of a `READ`. -/
def succeed (out : List Byte) (s : State) : Result :=
  .next (s.respond (okResponse s.fault out))

/-- `raise Fail(cause)`: no state is written but the release of the guard (R215, R220). -/
def raiseFail (cause : Cause) (s : State) : Result :=
  .next (s.respond (failResponse cause s.fault))

/-- `FAULT` with the bit of a fault set (R222). -/
def State.recordFault (s : State) (code : FaultCode) : State :=
  { s with fault := setFaultBit s.fault code }

/-- `raise Fault(code)`: the sticky bit is set, the guard released, and the response shows the register after the set
(R222). -/
def raiseFault (code : FaultCode) (s : State) : Result :=
  .next ((s.recordFault code).respond (failResponse .fault (setFaultBit s.fault code)))

/-- The end of a body whose checks have passed: it succeeds, or a primitive had no meaning. -/
def finish : Except Fault (State × List Byte) → Result
  | .ok x => succeed x.2 x.1
  | .error f => .fault f

/-! ### The allocator (spec/40_lifecycle.md rules R121, R134) -/

/-- The allocator's answer to the request the command makes now: the environment's choice, or else the free value
(R121). Log entry 2. -/
def State.grantNow (s : State) : Bool :=
  s.grants.headD (Config.allocatorAnswer s.draws)

/-- The state after `draw grant`. -/
def State.afterDraw (s : State) : State :=
  { s with grants := s.grants.tail, draws := s.draws + 1 }

/-- The free events of every region the block owns (R130 lines 1 to 3, R241). -/
def State.frees (s : State) : List Output :=
  (if s.liveStorage then [.free .storage] else []) ++ (if s.livePfi then [.free .pfi] else []) ++
    (if s.livePfo then [.free .pfo] else [])

/-! ### Cursors (spec/20_memory.md rule R66, spec/41_write.md rules R152, R153) -/

/-- `SlotAddr(i) = i * frameSizeIn` (R66). -/
def State.slotAddr (s : State) (i : Word) : Nat :=
  i.toNat * s.frameSizeIn.toNat

/-- `(i + 1) mod numFrames` (R65). -/
def State.nextSlot (s : State) (i : Word) : Word :=
  BitVec.ofNat 32 ((i.toNat + 1) % s.numFrames.toNat)

/-- The cursors after one advance of the write cursor: on a collision the oldest unread frame is discarded (R152). -/
def State.advanceWrite (s : State) : State :=
  { s with
    writeFrameId := s.nextSlot s.writeFrameId
    readFrameId := if s.nextSlot s.writeFrameId = s.readFrameId then s.nextSlot s.readFrameId else s.readFrameId }

/-- The read cursor after one frame (R180, R182). -/
def State.advanceRead (s : State) : State :=
  { s with readFrameId := s.nextSlot s.readFrameId }

/-- `CommitFrame(F)`: the store comes first, into the slot the cursor names before it moves (R153). -/
def commitFrame (f : List Byte) (s : State) : Except Fault State :=
  if s.numFrames = 0#32 then .error .zeroDivisor
  else (memWrite s .storage (s.slotAddr s.writeFrameId) f).map State.advanceWrite

end Sys2Proof.Machine
end

