-- ==== Sys2Proof/Machine/Lifecycle.lean ====
section
/-! DEFINITION. The meanings of `INIT_IN`, `INIT_OUT` and `RESET` (spec/40_lifecycle.md). -/

namespace Sys2Proof.Machine

/-- The effects of a successful `INIT_IN`, all together (R123), with its allocations (R134). -/
def State.commitInput (s : State) (d : Descriptor) : State :=
  { s with
    fmtIn := d
    frameSizeIn := BitVec.ofNat 32 d.frameSize
    capacity := BitVec.ofNat 32 (capacityFor s.cfg d)
    storage := []
    numFrames := BitVec.ofNat 32 (capacityFor s.cfg d / d.frameSize)
    pfi := []
    liveStorage := true
    livePfi := true
    writeFrameId := 0#32
    readFrameId := 0#32
    partialBytesIn := 0#32
    trace := s.trace ++ [.alloc .storage (capacityFor s.cfg d), .alloc .pfi d.frameSize] }

/-- `INIT_IN` (R120): the checks in the order of R218, the draw, and the commit. -/
def execInitIn (desc : Option Descriptor) (s : State) : Result :=
  if s.liveStorage then raiseFail .alreadyInitialized s
  else
    match desc with
    | none => raiseFail .invalidArgument s
    | some d =>
      if inputFormatValid s.cfg d = false then raiseFail .invalidArgument s
      else if s.cfg.frameMax < d.frameSize ∨ s.cfg.storageMax < capacityFor s.cfg d ∨ s.grantNow = false then
        raiseFail .allocationFailure s.afterDraw
      else succeed [] (s.afterDraw.commitInput d)

/-- The effects of a successful `INIT_OUT`, all together (R127): a previous `PFO` is freed before the new one is
allocated (R128, R134). -/
def State.commitOutput (s : State) (d : Descriptor) : State :=
  { s with
    fmtOut := d
    frameSizeOut := BitVec.ofNat 32 d.frameSize
    pfo := []
    livePfo := true
    partialBytesOut := 0#32
    writeFrameId := 0#32
    readFrameId := 0#32
    trace := s.trace ++ ((if s.livePfo then [.free .pfo] else []) ++ [.alloc .pfo d.frameSize]) }

/-- `INIT_OUT` (R125): accepted in every state, before or after `INIT_IN` and again (R128). -/
def execInitOut (desc : Option Descriptor) (s : State) : Result :=
  match desc with
  | none => raiseFail .invalidArgument s
  | some d =>
    if outputFormatValid s.cfg d = false then raiseFail .invalidArgument s
    else if s.cfg.frameMax < d.frameSize ∨ s.grantNow = false then raiseFail .allocationFailure s.afterDraw
    else succeed [] (s.afterDraw.commitOutput d)

/-- The effects of `RESET` (R130 lines 1 to 7). `FAULT`, `LOCK`, `OWNER` and the port phases are not touched (R132). -/
def State.release (s : State) : State :=
  { s with
    liveStorage := false
    livePfi := false
    livePfo := false
    storage := []
    pfi := []
    pfo := []
    fmtIn := Descriptor.zero
    fmtOut := Descriptor.zero
    frameSizeIn := 0#32
    frameSizeOut := 0#32
    numFrames := 0#32
    capacity := 0#32
    writeFrameId := 0#32
    readFrameId := 0#32
    partialBytesIn := 0#32
    partialBytesOut := 0#32
    trace := s.trace ++ s.frees }

/-- `RESET` (R130): it cannot fail. -/
def execReset (s : State) : Result :=
  succeed [] s.release

end Sys2Proof.Machine
end

