-- ==== Sys2Proof/Machine/ReadPath.lean ====
section
/-! DEFINITION. The meaning of `READ`: Partial Frame Disassembler and Sample Converter (spec/42_read.md). -/

namespace Sys2Proof.Machine

/-- `ConvSupported()` (R175). -/
def State.convSupported (s : State) : Bool :=
  s.livePfo && (s.fmtIn.channels == s.fmtOut.channels) &&
    s.cfg.convPairs.elem (s.fmtIn.bits.toNat, s.fmtOut.bits.toNat)

/-- A frame will have to be converted: bytes are wanted after step 1 and the ring is not empty (R171). -/
def State.mustConvert (s : State) (n : Nat) : Bool :=
  decide (min n s.partialBytesOut.toNat < n) && (s.readFrameId != s.writeFrameId)

/-- `partialBytesOut <- n` (R173, R181, R182). -/
def State.setPartialOut (s : State) (n : Nat) : State :=
  { s with partialBytesOut := BitVec.ofNat 32 n }

/-- Step 1, delivering pending converted bytes (R173). Answers the state and the bytes delivered. -/
def deliverPending (n : Nat) (s : State) : Except Fault (State × List Byte) :=
  if s.partialBytesOut = 0#32 then .ok (s, [])
  else if s.frameSizeOut.toNat < s.partialBytesOut.toNat then .error .negativeOffset
  else do
    let k := min n s.partialBytesOut.toNat
    let out ← memRead s .pfo (s.frameSizeOut.toNat - s.partialBytesOut.toNat) k
    let s1 := s.setPartialOut (s.partialBytesOut.toNat - k)
    if k = s.partialBytesOut.toNat then
      let s2 ← memWrite s1 .pfo 0 (zeros s.frameSizeOut.toNat)
      .ok (s2, out)
    else .ok (s1, out)

/-- The frame at the read cursor, converted, and the cursor moved on (R180, R182). -/
def takeFrame (s : State) : Except Fault (State × List Byte) :=
  if s.numFrames = 0#32 then .error .zeroDivisor
  else do
    let f ← memRead s .storage (s.slotAddr s.readFrameId) s.frameSizeIn.toNat
    .ok (s.advanceRead, convertFrame s.fmtIn s.fmtOut f)

/-- Where the loop of step 3 stands: the state, the bytes put out, the bytes still wanted, and whether the ring has
drained (R180). -/
structure ReadProgress where
  state : State
  out : List Byte
  rem : Nat
  drained : Bool
deriving DecidableEq, Repr

/-- At most `n` whole output frames, stopping when the read cursor meets the write cursor (R180). -/
def takeWhole : Nat → State → List Byte → Nat → Except Fault ReadProgress
  | 0, s, out, rem => .ok ⟨s, out, rem, false⟩
  | n + 1, s, out, rem => do
    let x ← takeFrame s
    if x.1.readFrameId = x.1.writeFrameId then .ok ⟨x.1, out ++ x.2, rem - s.frameSizeOut.toNat, true⟩
    else takeWhole n x.1 (out ++ x.2) (rem - s.frameSizeOut.toNat)

/-- Step 4 when the ring drained: silence, and the unused zero tail kept (R181). -/
def silentTail (p : ReadProgress) : Except Fault (State × List Byte) :=
  if p.rem % p.state.frameSizeOut.toNat = 0 then .ok (p.state, p.out ++ zeros p.rem)
  else do
    let s1 ← memWrite p.state .pfo 0 (zeros p.state.frameSizeOut.toNat)
    .ok (s1.setPartialOut (p.state.frameSizeOut.toNat - p.rem % p.state.frameSizeOut.toNat), p.out ++ zeros p.rem)

/-- Step 4 when the ring did not drain: one more frame through `PFO` (R182). -/
def fractionalFrame (p : ReadProgress) : Except Fault (State × List Byte) :=
  if p.rem = 0 then .ok (p.state, p.out)
  else do
    let x ← takeFrame p.state
    let s1 ← memWrite x.1 .pfo 0 x.2
    let head ← memRead s1 .pfo 0 p.rem
    .ok (s1.setPartialOut (p.state.frameSizeOut.toNat - p.rem), p.out ++ head)

/-- Steps 3 and 4 for `rem` bytes (R180 to R182). -/
def deliverFrames (rem : Nat) (out : List Byte) (s : State) : Except Fault (State × List Byte) :=
  if s.frameSizeOut = 0#32 then .error .zeroDivisor
  else do
    let p ← takeWhole (rem / s.frameSizeOut.toNat) s out rem
    if p.drained then silentTail p else fractionalFrame p

/-- Lines 4 to 9 of `READ` (R170): pending bytes, the underrun policy of R174, then frames. -/
def readBody (n : Nat) (s : State) : Except Fault (State × List Byte) := do
  let x ← deliverPending n s
  let rem := n - min n s.partialBytesOut.toNat
  if rem = 0 then .ok x
  else if x.1.readFrameId = x.1.writeFrameId then .ok (x.1, x.2 ++ zeros rem)
  else deliverFrames rem x.2 x.1

/-- `READ` (R170): the checks in the order of R218, the conversion pre-check of R171, then the steps. -/
def execRead (len : Word) (s : State) : Result :=
  if s.liveStorage = false then raiseFail .uninitialized s
  else if len = 0#32 then raiseFail .invalidArgument s
  else if s.mustConvert len.toNat = true ∧ s.livePfo = false then raiseFault .noOut s
  else if s.mustConvert len.toNat = true ∧ s.convSupported = false then raiseFault .conv s
  else finish (readBody len.toNat s)

end Sys2Proof.Machine
end

