-- ==== Sys2Proof/Machine/WritePath.lean ====
section
/-! DEFINITION. The meaning of `WRITE`: Frame Index Tracker and Partial Frame Assembler (spec/41_write.md). -/

namespace Sys2Proof.Machine

/-- `partialBytesIn <- n` (R151, R155). -/
def State.setPartialIn (s : State) (n : Nat) : State :=
  { s with partialBytesIn := BitVec.ofNat 32 n }

/-- Step 1, completing the pending partial frame (R151). Answers the state and the payload bytes left. -/
def completePartial (b : List Byte) (s : State) : Except Fault (State × List Byte) :=
  if s.partialBytesIn = 0#32 then .ok (s, b)
  else if s.frameSizeIn.toNat < s.partialBytesIn.toNat then .error .negativeOffset
  else do
    let k := min b.length s.partialBytesIn.toNat
    let s1 ← memWrite s .pfi (s.frameSizeIn.toNat - s.partialBytesIn.toNat) (b.take k)
    let s2 := s1.setPartialIn (s.partialBytesIn.toNat - k)
    if k = s.partialBytesIn.toNat then
      let f ← memRead s2 .pfi 0 s.frameSizeIn.toNat
      let s3 ← commitFrame f s2
      let s4 ← memWrite s3 .pfi 0 (zeros s.frameSizeIn.toNat)
      .ok (s4, b.drop k)
    else .ok (s2, b.drop k)

/-- `n` frames committed straight from the payload (R154). Answers the state and the payload bytes left. -/
def commitWhole : Nat → List Byte → State → Except Fault (State × List Byte)
  | 0, b, s => .ok (s, b)
  | n + 1, b, s => do
    let s1 ← commitFrame (b.take s.frameSizeIn.toNat) s
    commitWhole n (b.drop s.frameSizeIn.toNat) s1

/-- Step 2: the loop runs `rem div frameSizeIn` times (R154). -/
def commitFrames (b : List Byte) (s : State) : Except Fault (State × List Byte) :=
  if s.frameSizeIn = 0#32 then .error .zeroDivisor
  else commitWhole (b.length / s.frameSizeIn.toNat) b s

/-- Step 3, the tail (R155). -/
def keepTail (b : List Byte) (s : State) : Except Fault State :=
  if b.length = 0 then .ok s
  else do
    let s1 ← memWrite s .pfi 0 b
    .ok (s1.setPartialIn (s.frameSizeIn.toNat - b.length))

/-- Lines 4 to 7 of `WRITE` (R150). -/
def writeBody (b : List Byte) (s : State) : Except Fault State := do
  let x ← completePartial b s
  let y ← commitFrames x.2 x.1
  keepTail y.2 y.1

/-- `WRITE` (R150): the checks in the order of R218, then the three steps. -/
def execWrite (len : Word) (bytes : Option (List Byte)) (s : State) : Result :=
  if s.liveStorage = false then raiseFail .uninitialized s
  else if len = 0#32 then raiseFail .invalidArgument s
  else
    match bytes with
    | none => raiseFail .invalidArgument s
    | some b => finish ((writeBody b s).map fun t => (t, []))

end Sys2Proof.Machine
end

