-- ==== Sys2Proof/Machine/Dispatch.lean ====
section
/-! DEFINITION. The meaning of each command: the body that runs while its port owns the guard (spec/43_guard.md rule R204). -/

namespace Sys2Proof.Machine

def exec (i : Instr) (s : State) : Host.Outcome State Fault Refusal :=
  match i with
  | .initIn desc => Sys2Proof.Machine.execInitIn desc s
  | .initOut desc => Sys2Proof.Machine.execInitOut desc s
  | .write len bytes => Sys2Proof.Machine.execWrite len bytes s
  | .read len => Sys2Proof.Machine.execRead len s
  | .reset => Sys2Proof.Machine.execReset s

end Sys2Proof.Machine
end

