-- ==== Sys2Proof/WellFormed.lean ====
section
/-! DEFINITION. Which commands can be presented: the payload has the length the command word gives it, and an extension is
no longer than `EXT_MAX` (spec/30_encoding.md rules R94, R96, R103, R105; decision D35). -/

namespace Sys2Proof

/-- The extension has `EXT_LEN` bytes and `EXT_LEN <= EXT_MAX` (R96, R103). -/
def Descriptor.wellFormed (extMax : Nat) (d : Descriptor) : Bool :=
  decide (d.ext.length = d.extLen.toNat) && decide (d.extLen.toNat ≤ extMax)

/-- The operands are ones a legal request carries. -/
def Instr.wellFormed (extMax : Nat) : Instr → Bool
  | .initIn none => true
  | .initIn (some d) => d.wellFormed extMax
  | .initOut none => true
  | .initOut (some d) => d.wellFormed extMax
  | .write _ none => true
  | .write len (some b) => decide (b.length = len.toNat)
  | .read _ => true
  | .reset => true

end Sys2Proof
end

