-- ==== Sys2Proof/Decode.lean ====
section
/-! DEFINITION. The decoder of requests, total on every command word and payload, the encoder, and the byte channel
(spec/30_encoding.md rules R91 to R98, R103, R105, R110). -/

namespace Sys2Proof

/-- Why a request is not one of the five commands. Every reason but `payload` is an illegal encoding (R103); `payload` is
a port that supplies other than the bytes the command word implies (93 U15). -/
inductive DecodeError where
  /-- `OPC` outside `0x01 .. 0x05`. -/
  | opcode
  /-- A non-zero bit in `RSV`. -/
  | reserved
  /-- `PV = 1` on `READ` or `RESET`. -/
  | pointer
  /-- `LEN` other than 0 on `INIT_IN`, `INIT_OUT` or `RESET`. -/
  | length
  /-- A descriptor with `EXT_LEN > EXT_MAX`. -/
  | extension
  /-- The payload has not the length rule R105 gives it. -/
  | payload
deriving DecidableEq, Repr

/-- The five rows of the opcode map (R110). -/
inductive Opcode where
  | initIn | initOut | write | read | reset
deriving DecidableEq, Repr

/-- `OPC`, bits 63:56 (R92). -/
def opcField (w : CmdWord) : BitVec 8 := w.extractLsb' 56 8

/-- `RSV`, bits 55:33 (R92). -/
def rsvField (w : CmdWord) : BitVec 23 := w.extractLsb' 33 23

/-- `PV`, bit 32 (R92). -/
def pvField (w : CmdWord) : Bool := w.getLsbD 32

/-- `LEN`, bits 31:0 (R92). -/
def lenField (w : CmdWord) : Word := w.extractLsb' 0 32

/-- The opcode values (R93). -/
def Opcode.code : Opcode → BitVec 8
  | .initIn => 0x01
  | .initOut => 0x02
  | .write => 0x03
  | .read => 0x04
  | .reset => 0x05

/-- The mask of a row of the opcode map (R110). -/
def Opcode.mask : Opcode → CmdWord
  | .initIn => 0xFFFFFFFEFFFFFFFF
  | .initOut => 0xFFFFFFFEFFFFFFFF
  | .write => 0xFFFFFFFE00000000
  | .read => 0xFFFFFFFF00000000
  | .reset => 0xFFFFFFFFFFFFFFFF

/-- The match of a row of the opcode map (R110). -/
def Opcode.pattern : Opcode → CmdWord
  | .initIn => 0x0100000000000000
  | .initOut => 0x0200000000000000
  | .write => 0x0300000000000000
  | .read => 0x0400000000000000
  | .reset => 0x0500000000000000

/-- A word selects a row when `w & mask = match` (R110). -/
def Opcode.selects (o : Opcode) (w : CmdWord) : Bool :=
  w &&& o.mask == o.pattern

/-- Which opcode an `OPC` value names (R93). -/
def opcodeOf (c : BitVec 8) : Option Opcode :=
  if c = 0x01 then some .initIn
  else if c = 0x02 then some .initOut
  else if c = 0x03 then some .write
  else if c = 0x04 then some .read
  else if c = 0x05 then some .reset
  else none

/-- The command a word names, or why it is illegal (R103). -/
def classify (w : CmdWord) : Except DecodeError Opcode :=
  match opcodeOf (opcField w) with
  | none => .error .opcode
  | some o =>
    if rsvField w ≠ 0#23 then .error .reserved
    else if pvField w = true ∧ (o = .read ∨ o = .reset) then .error .pointer
    else if lenField w ≠ 0#32 ∧ (o = .initIn ∨ o = .initOut ∨ o = .reset) then .error .length
    else .ok o

/-- A 32-bit word of a byte array, least significant byte first (R91, R96). -/
def wordAt (bs : List Byte) (a : Nat) : Word :=
  BitVec.ofNat 32 (leUint (slice bs a 4))

/-- The descriptor record at the head of a payload (R96). -/
def descriptorOf (payload : List Byte) : Descriptor where
  w0 := wordAt payload 0
  w1 := wordAt payload 4
  w2 := wordAt payload 8
  w3 := wordAt payload 12
  ext := payload.drop 16

/-- How many payload bytes follow the command word (R105). -/
def payloadLength (r : Request) : Nat :=
  match classify r.word with
  | .ok .initIn => if pvField r.word then 16 + (descriptorOf r.payload).extLen.toNat else 0
  | .ok .initOut => if pvField r.word then 16 + (descriptorOf r.payload).extLen.toNat else 0
  | .ok .write => if pvField r.word then (lenField r.word).toNat else 0
  | .ok .read => 0
  | .ok .reset => 0
  | .error _ => 0

/-- The descriptor operand of an `INIT_*` command, null when `PV = 0` (R94, R98, R103). -/
def descriptorOperand (extMax : Nat) (r : Request) : Except DecodeError (Option Descriptor) :=
  if pvField r.word = false then .ok none
  else if extMax < (descriptorOf r.payload).extLen.toNat then .error .extension
  else .ok (some (descriptorOf r.payload))

/-- The payload operand of `WRITE`, null when `PV = 0` (R94). -/
def bytesOperand (r : Request) : Option (List Byte) :=
  if pvField r.word then some r.payload else none

/-- The decoder (R103, R105, R110): total, and every rejection has a name. -/
def decode (extMax : Nat) (r : Request) : Except DecodeError Instr :=
  if r.payload.length ≠ payloadLength r then .error .payload
  else
    match classify r.word with
    | .error e => .error e
    | .ok .initIn => (descriptorOperand extMax r).map .initIn
    | .ok .initOut => (descriptorOperand extMax r).map .initOut
    | .ok .write => .ok (.write (lenField r.word) (bytesOperand r))
    | .ok .read => .ok (.read (lenField r.word))
    | .ok .reset => .ok .reset

/-- The word with the given fields `OPC`, `RSV`, `PV`, `LEN` (R92). -/
def fieldsWord (opc : BitVec 8) (rsv : BitVec 23) (pv : Bool) (len : Word) : CmdWord :=
  (opc ++ rsv ++ BitVec.ofBool pv ++ len : BitVec (8 + 23 + 1 + 32)).cast rfl

/-- The command word of a row of the opcode map with its free fields (R92, R93). -/
def cmdWord (o : Opcode) (pv : Bool) (len : Word) : CmdWord :=
  fieldsWord o.code 0#23 pv len

/-- The bytes of a descriptor record (R91, R96). -/
def descriptorBytes (d : Descriptor) : List Byte :=
  leBytes 4 d.w0.toNat ++ leBytes 4 d.w1.toNat ++ leBytes 4 d.w2.toNat ++ leBytes 4 d.w3.toNat ++ d.ext

/-- The encoder: the request of a command (R92 to R98). -/
def encode : Instr → Request
  | .initIn none => ⟨cmdWord .initIn false 0#32, []⟩
  | .initIn (some d) => ⟨cmdWord .initIn true 0#32, descriptorBytes d⟩
  | .initOut none => ⟨cmdWord .initOut false 0#32, []⟩
  | .initOut (some d) => ⟨cmdWord .initOut true 0#32, descriptorBytes d⟩
  | .write len none => ⟨cmdWord .write false len, []⟩
  | .write len (some b) => ⟨cmdWord .write true len, b⟩
  | .read len => ⟨cmdWord .read false len, []⟩
  | .reset => ⟨cmdWord .reset false 0#32, []⟩

/-- A request carried over a byte-wide channel: the command word least significant byte first, then the payload in
stream order (R91). -/
def Request.toBytes (r : Request) : List Byte :=
  leBytes 8 r.word.toNat ++ r.payload

/-- The request at the head of a byte stream and the bytes after it, `none` when the stream ends inside the request
(R91, R105). -/
def Request.ofBytes (bs : List Byte) : Option (Request × List Byte) :=
  let word : CmdWord := BitVec.ofNat 64 (leUint (bs.take 8))
  let n := payloadLength ⟨word, bs.drop 8⟩
  if bs.length < 8 + n then none
  else some (⟨word, (bs.drop 8).take n⟩, bs.drop (8 + n))

/-- The request whose command word is the low 64 bits of `w` and whose payload bytes are the bits above, zero above
bit `nbits`, as many as the command word asks for (R105). -/
def tableRequest (nbits w : Nat) : Request :=
  let v := w % 2 ^ nbits
  let word : CmdWord := BitVec.ofNat 64 v
  let rest : Int := ((v / 2 ^ 64 : Nat) : Int)
  ⟨word, leBytes (payloadLength ⟨word, leBytes 16 rest⟩) rest⟩

/-- The instruction the decoder reads from the bits `w`, under the configuration of `State.reset`. -/
def decodeTableWord (nbits w : Nat) : Option Instr :=
  (decode Config.T8.extMax (tableRequest nbits w)).toOption

end Sys2Proof
end

