-- ==== Sys2Proof/Machine/Window.lean ====
section
/-! DEFINITION. The status window `SR0` to `SR17` (spec/10_state.md rule R35). -/

namespace Sys2Proof.Machine

/-- `SR0`: the ownership bits in bits 0 to 2 (R35). -/
def State.liveWord (s : State) : Word :=
  (0#29 ++ BitVec.ofBool s.livePfo ++ BitVec.ofBool s.livePfi ++ BitVec.ofBool s.liveStorage :
    BitVec (29 + 1 + 1 + 1)).cast rfl

/-- The contents of the window, `SR0` first (R35). -/
def State.window (s : State) : Vector Word 18 :=
  #v[s.liveWord, s.fault.setWidth 32, s.writeFrameId, s.readFrameId, s.partialBytesIn, s.partialBytesOut,
    s.frameSizeIn, s.frameSizeOut, s.numFrames, s.capacity,
    s.fmtIn.w0, s.fmtIn.w1, s.fmtIn.w2, s.fmtIn.w3, s.fmtOut.w0, s.fmtOut.w1, s.fmtOut.w2, s.fmtOut.w3]

/-- One word of the window (R35). -/
def State.windowWord (s : State) (n : Fin 18) : Word := s.window[n]

end Sys2Proof.Machine
end

