-- ==== Sys2Proof/Machine/Guard.lean ====
section
/-! DEFINITION. The Concurrency Guard, the port phases, the status window as moves, and hardware reset (spec/43_guard.md,
spec/10_state.md rule R35, spec/70_reset_and_hazards.md rules R240, R241). -/

namespace Sys2Proof.Machine

/-- The move the environment makes next. Log entry 3. -/
def State.nextMove (s : State) : Move :=
  s.schedule.headD (Config.environment s.moves)

/-- The state once that move is taken from the schedule. -/
def State.afterMove (s : State) : State :=
  { s with schedule := s.schedule.tail, moves := s.moves + 1 }

/-- What the block hands to the outside. -/
def State.emit (s : State) (o : Output) : State :=
  { s with trace := s.trace ++ [o] }

/-- A port presents a request: a legal one is latched and waits, an illegal one is answered at once without the guard
(R103, R209, R211). A port that breaks the protocol is refused (93 U15, log entry 8). -/
def presentRequest (p : Nat) (req : Request) (s : State) : Result :=
  match s.ports[p]? with
  | none => .refused .noSuchPort
  | some .idle =>
    match decode s.cfg.extMax req with
    | .ok _ => .next (s.setPort p (.waiting req))
    | .error .payload => .refused .portProtocol
    | .error _ => .next (s.setPort p (.responding (failResponse .illegalCommand s.fault)))
  | some _ => .refused .portProtocol

/-- The state after port `p` acquires the guard for its request (R201). -/
def State.acquire (s : State) (p : Nat) (req : Request) : State :=
  { s with lock := true, owner := p, ports := s.ports.set p (.holding req) }

/-- `TryAcquire(p)` (R201): a test-and-set. A port that finds `LOCK = 1` stays `WAITING`. -/
def tryAcquire (p : Nat) (s : State) : Result :=
  match s.ports[p]? with
  | none => .refused .noSuchPort
  | some (.waiting req) => if s.lock then .next s else .next (s.acquire p req)
  | some _ => .refused .moveNotEnabled

/-- The response and its data are handed over and the port is idle again (R205, R211). -/
def handOver (p : Nat) (s : State) : Result :=
  match s.ports[p]? with
  | none => .refused .noSuchPort
  | some (.responding r) => .next ((s.setPort p .idle).emit (.response p r))
  | some _ => .refused .moveNotEnabled

/-- The request of the command that holds the guard (R204). -/
def State.heldRequest (s : State) : Option Request :=
  if s.lock then
    match s.ports[s.owner]? with
    | some (.holding req) => some req
    | _ => none
  else none

/-- The command that holds the guard, decoded, or why there is none. -/
def State.fetch (s : State) : Except Refusal Instr :=
  match s.heldRequest with
  | none => .error .moveNotEnabled
  | some req =>
    match decode s.cfg.extMax req with
    | .ok i => .ok i
    | .error _ => .error .illegalLatched

/-- Hardware reset: every piece of the block's state at its reset value, outstanding commands dropped, live regions
freed (R240, R241). The parameters and the environment's own choices stay. -/
def State.hardReset (s : State) : State :=
  { State.resetWith s.cfg with
    schedule := s.schedule
    moves := s.moves
    grants := s.grants
    draws := s.draws
    trace := s.trace ++ s.frees }

/-- The state in which port 0 holds the guard with a request and its body is the next move. -/
def State.holdRequest (s : State) (req : Request) : State :=
  { s with
    lock := true
    owner := 0
    ports := .holding req :: s.ports.tail
    schedule := .runBody :: s.schedule }

end Sys2Proof.Machine
end

