-- ==== Sys2Proof/Machine/Moves.lean ====
section
/-! DEFINITION. What each move does (spec/43_guard.md rules R201 to R211, spec/70_reset_and_hazards.md rule R240,
spec/10_state.md rule R35). -/

namespace Sys2Proof.Machine

/-- The body of the command that holds the guard, as one atomic step (R204). -/
def runBody (s : State) : Host.Outcome State Fault Refusal :=
  match s.fetch with
  | .ok i => exec i s
  | .error r => .refused r

/-- What one move does. -/
def applyMove (m : Move) (s : State) : Host.Outcome State Fault Refusal :=
  match m with
  | .present p req => presentRequest p req s
  | .tryAcquire p => tryAcquire p s
  | .runBody => runBody s
  | .handOver p => handOver p s
  | .hardReset => .next s.hardReset
  | .readWindow n => .next (s.emit (.windowWord n (s.windowWord n)))
  | .writeWindow _ _ => .next s

end Sys2Proof.Machine
end

