-- ==== Sys2Proof/Machine/Step.lean ====
section
/-! DEFINITION. One step of the block: the environment's next move (spec/43_guard.md rules R201 to R211,
spec/70_reset_and_hazards.md rule R240, spec/10_state.md rule R35). -/

namespace Sys2Proof.Machine

/-- One step: the environment's next move is taken and applied. -/
def step (s : State) : Host.Outcome State Fault Refusal :=
  applyMove s.nextMove s.afterMove

/-- The instruction whose bits are `w`, held by port 0 and about to run. Log entry 9. -/
def State.withFetchWord (s : State) (nbits w : Nat) : State :=
  s.holdRequest (tableRequest nbits w)

end Sys2Proof.Machine
end

