-- ==== Sys2Proof/Machine/Channel.lean ====
section
/-! DEFINITION. Responses read field by field, and carried over a byte-wide channel (spec/30_encoding.md rules R90, R91,
R100 to R102, spec/20_memory.md rule R61). The byte form of requests stands in Decode.lean. -/

namespace Sys2Proof.Machine

/-- `OK`, bit 0 of a response word (R100). -/
def Response.ok (r : Response) : Bool := r.word.getLsbD 0

/-- `CAUSE`, bits 7:4 of a response word (R100). -/
def Response.cause (r : Response) : BitVec 4 := r.word.extractLsb' 4 4

/-- A response carried over a byte-wide channel: the response word least significant byte first (R91), then the data in
stream order (R90). -/
def Response.toBytes (r : Response) : List Byte :=
  leBytes 4 r.word.toNat ++ r.data

/-- How many data bytes follow a response word that answers the command `i`: `LEN` after a successful `READ`, none
otherwise (R102). -/
def Response.dataLength (i : Instr) (word : Word) : Nat :=
  match i with
  | .read len => if word.getLsbD 0 then len.toNat else 0
  | .initIn _ => 0
  | .initOut _ => 0
  | .write _ _ => 0
  | .reset => 0

/-- The response to the command `i` at the head of a byte stream and the bytes after it, `none` when the stream ends
inside the response (R91, R102). -/
def Response.ofBytes (i : Instr) (bs : List Byte) : Option (Response × List Byte) :=
  let word := wordAt bs 0
  let n := Response.dataLength i word
  if bs.length < 4 + n then none
  else some (⟨word, (bs.drop 4).take n⟩, bs.drop (4 + n))

end Sys2Proof.Machine
end

