-- ==== Sys2Proof/Safety.lean ====
section
/-! DEFINITION. What a legal state is (spec/10_state.md rule R44), what a good run is (spec/43_guard.md rule R211, spec/60_exceptions.md
rule R224), and the
views of a state that claims are stated in: the unread frames, the held and kept bytes, and which parts of two states
agree. -/

namespace Sys2Proof.Machine

/-! ### The ring as a queue (R14, R50, R68, R69, R156) -/

/-- The number of unread frames, `(writeFrameId - readFrameId) mod numFrames` (R44 item 7). -/
def State.unread (s : State) : Nat :=
  (s.writeFrameId.toNat + s.numFrames.toNat - s.readFrameId.toNat) % s.numFrames.toNat

/-- The bytes of slot `i` (R66). -/
def State.slot (s : State) (i : Nat) : List Byte :=
  Memory.readBytes s.storage (i * s.frameSizeIn.toNat) s.frameSizeIn.toNat

/-- The unread frames, oldest first (R14). -/
def State.unreadFrames (s : State) : List (List Byte) :=
  (List.range s.unread).map fun j => s.slot ((s.readFrameId.toNat + j) % s.numFrames.toNat)

/-- How many bytes of an unfinished input frame `PFI` holds (`h` of R156). -/
def State.heldIn (s : State) : Nat :=
  if s.partialBytesIn = 0#32 then 0 else s.frameSizeIn.toNat - s.partialBytesIn.toNat

/-- The bytes of an unfinished input frame (R68). -/
def State.held (s : State) : List Byte :=
  Memory.readBytes s.pfi 0 s.heldIn

/-- The converted bytes not yet delivered (R69). -/
def State.kept (s : State) : List Byte :=
  Memory.readBytes s.pfo (s.frameSizeOut.toNat - s.partialBytesOut.toNat) s.partialBytesOut.toNat

/-- An input frame as the Sample Converter renders it (R176). -/
def State.converted (s : State) (f : List Byte) : List Byte :=
  convertFrame s.fmtIn s.fmtOut f

/-- The first `k` frames of `n` bytes of a byte stream. -/
def framesOf (n k : Nat) (bs : List Byte) : List (List Byte) :=
  (List.range k).map fun j => slice bs (j * n) n

/-- The last `n` frames of a list: what a ring that discards the oldest keeps. -/
def newest (n : Nat) (l : List (List Byte)) : List (List Byte) :=
  l.drop (l.length - n)

/-! ### Which parts of two states agree -/

/-- The cursors are equal. -/
abbrev SameCursors (s t : State) : Prop :=
  t.writeFrameId = s.writeFrameId ∧ t.readFrameId = s.readFrameId

/-- The registers and memories only `INIT_IN`, `WRITE` and `RESET` write are equal, the cursors apart. -/
abbrev SameInput (s t : State) : Prop :=
  t.partialBytesIn = s.partialBytesIn ∧ t.frameSizeIn = s.frameSizeIn ∧ t.numFrames = s.numFrames ∧
    t.capacity = s.capacity ∧ t.fmtIn = s.fmtIn ∧ t.liveStorage = s.liveStorage ∧ t.livePfi = s.livePfi ∧
    t.storage = s.storage ∧ t.pfi = s.pfi

/-- The registers and the memory only `INIT_OUT`, `READ` and `RESET` write are equal, the cursors apart. -/
abbrev SameOutput (s t : State) : Prop :=
  t.partialBytesOut = s.partialBytesOut ∧ t.frameSizeOut = s.frameSizeOut ∧ t.fmtOut = s.fmtOut ∧
    t.livePfo = s.livePfo ∧ t.pfo = s.pfo

/-- Every register and memory that a command can write is equal, `FAULT` apart. -/
abbrev SameBlock (s t : State) : Prop :=
  SameCursors s t ∧ SameInput s t ∧ SameOutput s t

/-- The parameters and the environment's own record are equal, the allocator's draws apart. -/
abbrev SameEnvironment (s t : State) : Prop :=
  t.cfg = s.cfg ∧ t.schedule = s.schedule ∧ t.moves = s.moves

/-- No allocator answer was drawn and nothing was handed out. -/
abbrev NoTraffic (s t : State) : Prop :=
  t.grants = s.grants ∧ t.draws = s.draws ∧ t.trace = s.trace

/-- The command has ended with the response `r`: the guard is released and the owner's port responds (R205). -/
abbrev Answered (s t : State) (r : Response) : Prop :=
  t.lock = false ∧ t.owner = s.owner ∧ t.ports = s.ports.set s.owner (.responding r)

/-- The command ends in the failure `c`: `OK = 0` with that cause, no data, and no register, memory or flag written
(R215, R220). -/
abbrev FailsWith (c : Cause) (i : Instr) (s : State) : Prop :=
  ∃ t, exec i s = .next t ∧ Answered s t (failResponse c s.fault) ∧ SameBlock s t ∧ t.fault = s.fault ∧
    SameEnvironment s t ∧ t.trace = s.trace

/-! ### Legal states (R44) -/

/-- The input side: R44 items 1 to 3, R25, R27, R28, R31, with the format checks that `INIT_IN` made. -/
abbrev State.InputLegal (s : State) : Prop :=
  s.livePfi = s.liveStorage ∧
    (if s.liveStorage then
      inputFormatValid s.cfg s.fmtIn = true ∧ s.fmtIn.wellFormed s.cfg.extMax = true ∧
        s.frameSizeIn.toNat = s.fmtIn.frameSize ∧ s.fmtIn.frameSize ≤ s.cfg.frameMax ∧
        s.capacity.toNat = capacityFor s.cfg s.fmtIn ∧ capacityFor s.cfg s.fmtIn ≤ s.cfg.storageMax ∧
        s.numFrames.toNat = s.cfg.bufSeconds * s.fmtIn.rate.toNat ∧
        s.writeFrameId.toNat < s.numFrames.toNat ∧ s.readFrameId.toNat < s.numFrames.toNat ∧
        s.partialBytesIn.toNat < s.frameSizeIn.toNat
    else
      s.frameSizeIn = 0#32 ∧ s.numFrames = 0#32 ∧ s.capacity = 0#32 ∧ s.partialBytesIn = 0#32 ∧ s.writeFrameId = 0#32 ∧
        s.readFrameId = 0#32 ∧ s.fmtIn = Descriptor.zero)

/-- The output side: R44 items 4 to 6, R26, R32, with the format checks that `INIT_OUT` made. -/
abbrev State.OutputLegal (s : State) : Prop :=
  (if s.livePfo then
      outputFormatValid s.cfg s.fmtOut = true ∧ s.fmtOut.wellFormed s.cfg.extMax = true ∧
        s.frameSizeOut.toNat = s.fmtOut.frameSize ∧ s.fmtOut.frameSize ≤ s.cfg.frameMax ∧
        s.partialBytesOut.toNat < s.frameSizeOut.toNat
    else s.frameSizeOut = 0#32 ∧ s.partialBytesOut = 0#32 ∧ s.fmtOut = Descriptor.zero) ∧
    (s.partialBytesOut ≠ 0#32 → s.liveStorage = true ∧ s.convSupported = true)

/-- The memories: canonical, inside their current sizes (R40 to R42), and the zero parts of R68 and R69. -/
abbrev State.MemoryLegal (s : State) : Prop :=
  Memory.wf s.storage = true ∧ Memory.wf s.pfi = true ∧ Memory.wf s.pfo = true ∧
    Memory.within (s.regionSize .storage) s.storage = true ∧ Memory.within s.heldIn s.pfi = true ∧
    Memory.within (s.regionSize .pfo) s.pfo = true ∧ (s.partialBytesOut = 0#32 → s.pfo = [])

/-- A port is between its acquire and its release (R48). -/
def Phase.holds : Phase → Bool
  | .holding _ => true
  | _ => false

/-- A request latched in a phase is a legal command (R211). -/
def Phase.latchLegal (extMax : Nat) : Phase → Bool
  | .waiting req => (decode extMax req).toOption.isSome
  | .holding req => (decode extMax req).toOption.isSome
  | _ => true

/-- The guard: `NPORTS` ports, `LOCK = 1` exactly while a port is `HOLDING`, that port is `OWNER` and no other holds
(R47, R201, R203), and every latched request is legal (R211). -/
abbrev State.GuardLegal (s : State) : Prop :=
  s.ports.length = s.cfg.nports ∧
    (∀ p < s.ports.length, ((s.ports[p]?.map Phase.holds) = some true ↔ (s.lock = true ∧ s.owner = p))) ∧
    (s.lock = true → s.owner < s.ports.length) ∧
    (∀ ph ∈ s.ports, ph.latchLegal s.cfg.extMax = true)

/-- `FAULT` bits 7:2 are zero (R33). -/
abbrev State.FaultLegal (s : State) : Prop :=
  s.fault &&& 0xFC#8 = 0#8

/-- The invariant of every reachable state (R44), with the parameters as rule R9 constrains them. -/
structure State.Legal (s : State) : Prop where
  cfg : s.cfg.Legal
  input : s.InputLegal
  output : s.OutputLegal
  memory : s.MemoryLegal
  guard : s.GuardLegal
  fault : s.FaultLegal

/-! ### Good runs (R211, R224) -/

/-- No fault has been met since hardware reset: `FAULT = 0` (R224). -/
abbrev State.Good (s : State) : Prop := s.fault = 0#8

/-- Every port is `IDLE` and `LOCK = 0` (R211). -/
abbrev State.Quiet (s : State) : Prop := s.lock = false ∧ ∀ ph ∈ s.ports, ph = .idle

/-- Does a port present a request in this move? -/
def Move.presents : Move → Bool
  | .present _ _ => true
  | _ => false

/-- A run is over: every port is `IDLE`, `LOCK = 0`, and no port has a further request to present (R211). The requests
still to come are those of the schedule: log entry 18. -/
abbrev State.Over (s : State) : Prop := s.Quiet ∧ ∀ m ∈ s.schedule, m.presents = false

/-- A final state of a good run: the run is over and has not gone wrong (R224). -/
abbrev State.GoodEnd (s : State) : Prop := s.Over ∧ s.Good

/-- A good run of `k` steps from `s` ends in `t` (R224). -/
abbrev GoodRun (k : Nat) (s t : State) : Prop := core.run k s = .next t ∧ t.GoodEnd

/-- A port still has to hand over a response with `CAUSE = 6` (R222). -/
def Phase.answersFault : Phase → Bool
  | .responding r => r.cause == causeCode .fault
  | _ => false

/-- A response with `CAUSE = 6` was handed over (R222). -/
def Output.answersFault : Output → Bool
  | .response _ r => r.cause == causeCode .fault
  | _ => false

/-- No command answered `CAUSE = 6` (R224): no response handed over has it, and none that waits for its hand-over. -/
abbrev State.NoFaultAnswered (s : State) : Prop :=
  (∀ ph ∈ s.ports, ph.answersFault = false) ∧ ∀ o ∈ s.trace, o.answersFault = false

/-- The moves of one command that a port issues with no other move between them (R211). -/
def commandMoves (p : Nat) (i : Instr) : List Move :=
  [.present p (encode i), .tryAcquire p, .runBody, .handOver p]

/-! ### The history of allocations (R134) -/

/-- Whether the block owns a region once it has emitted these outputs, `none` when one of them allocates a region the
block owns or frees one it does not. -/
def ownedAfter (sp : Space) : List Output → Option Bool
  | [] => some false
  | o :: os => (ownedAfter sp os).bind fun owned =>
      match o with
      | .alloc sp' _ => if sp' = sp then (if owned then none else some true) else some owned
      | .free sp' => if sp' = sp then (if owned then some false else none) else some owned
      | _ => some owned

/-- The ownership bit of a region (R30). -/
def State.live (s : State) : Space → Bool
  | .storage => s.liveStorage
  | .pfi => s.livePfi
  | .pfo => s.livePfo

/-- Every region was allocated and freed in turn, and its ownership bit says what the history says (R30, R134). -/
abbrev State.HistoryLegal (s : State) : Prop :=
  ownedAfter .storage s.trace.reverse = some s.liveStorage ∧ ownedAfter .pfi s.trace.reverse = some s.livePfi ∧
    ownedAfter .pfo s.trace.reverse = some s.livePfo

end Sys2Proof.Machine
end

