-- ==== Sys2Proof/Certificates/Slice0/Obligations.lean ====
section
/-! DEFINITION. The statements for the provers. Each docstring names the rule of spec/ it formalises. -/

open Sys2Proof Sys2Proof.Machine

/-! ### Encoding -/

/-- Every well-formed command, with every operand at every value, is decoded from its encoding (R92, R94, R96, R105). -/
def Obligations.DecodeOfEncode : Prop :=
  ∀ (extMax : Nat) (i : Instr), i.wellFormed extMax = true → decode extMax (encode i) = .ok i

/-- A request has one meaning: what the decoder reads encodes back to the same bits (R92, R94, R96, R105). -/
def Obligations.EncodeOfDecode : Prop :=
  ∀ (extMax : Nat) (r : Request) (i : Instr), decode extMax r = .ok i → encode i = r

/-- The decoder answers well-formed commands only (R94, R103, R105). -/
def Obligations.DecodedIsWellFormed : Prop :=
  ∀ (extMax : Nat) (r : Request) (i : Instr), decode extMax r = .ok i → i.wellFormed extMax = true

/-- A word is a command exactly when it selects a row of the opcode map by mask and match, and no word selects two
rows (R110). -/
def Obligations.OpcodeMapSelectsTheCommand : Prop :=
  (∀ (w : CmdWord) (o : Opcode), classify w = .ok o ↔ o.selects w = true) ∧
    ∀ (w : CmdWord) (o o' : Opcode), o.selects w = true → o'.selects w = true → o = o'

/-- The illegal command words are those rule R103 lists, and no other. -/
def Obligations.IllegalWordsAreThese : Prop :=
  ∀ w : CmdWord, (∃ e, classify w = .error e) ↔
    (opcField w < 0x01#8 ∨ 0x05#8 < opcField w) ∨ rsvField w ≠ 0#23 ∨
      (pvField w = true ∧ (opcField w = 0x04#8 ∨ opcField w = 0x05#8)) ∨
      (lenField w ≠ 0#32 ∧ (opcField w = 0x01#8 ∨ opcField w = 0x02#8 ∨ opcField w = 0x05#8))

/-- A request carried over a byte channel is read back with exactly the bytes after it left (R91, R105). -/
def Obligations.ByteChannelRoundTrip : Prop :=
  ∀ (extMax : Nat) (i : Instr) (rest : List Byte), i.wellFormed extMax = true →
    Request.ofBytes ((encode i).toBytes ++ rest) = some (encode i, rest)

/-- The worked encodings of rule R108. -/
def Obligations.WorkedEncodings : Prop :=
  encode (.initIn (some ⟨0x00010001, 0x00100002, 0x00000004, 0x00000000, []⟩)) =
      ⟨0x0100000100000000, [0x01, 0x00, 0x01, 0x00, 0x02, 0x00, 0x10, 0x00, 4, 0, 0, 0, 0, 0, 0, 0]⟩ ∧
    encode (.initOut (some ⟨0x00010001, 0x00200002, 0x00000004, 0x00000000, []⟩)) =
      ⟨0x0200000100000000, [0x01, 0x00, 0x01, 0x00, 0x02, 0x00, 0x20, 0x00, 4, 0, 0, 0, 0, 0, 0, 0]⟩ ∧
    encode (.initOut (some ⟨0x0005FFFE, 0x00200002, 0x00000004, 0x00000000, []⟩)) =
      ⟨0x0200000100000000, [0xFE, 0xFF, 0x05, 0x00, 0x02, 0x00, 0x20, 0x00, 4, 0, 0, 0, 0, 0, 0, 0]⟩ ∧
    encode (.write 4 (some [0x64, 0x00, 0x9C, 0xFF])) = ⟨0x0300000100000004, [0x64, 0x00, 0x9C, 0xFF]⟩ ∧
    encode (.write 4 none) = ⟨0x0300000000000004, []⟩ ∧
    encode (.write 0 (some [])) = ⟨0x0300000100000000, []⟩ ∧
    encode (.read 8) = ⟨0x0400000000000008, []⟩ ∧
    encode .reset = ⟨0x0500000000000000, []⟩ ∧
    (encode (.read 8)).toBytes = [0x08, 0x00, 0x00, 0x00, 0x00, 0x00, 0x00, 0x04]

/-- One request of every row of the opcode map decodes to the command it stands for. The command words are written out
from the spec's encodings (R92, R93, R108, R110); that a whole request is one number, with the payload in the bits above
64, least significant byte first, under the `EXT_MAX` of `T8`, is the model's choice: log entry 10. -/
def Obligations.TableWordsDecode : Prop :=
  decodeTableWord 64 0x0100000000000000 = some (.initIn none) ∧
    decodeTableWord 64 0x0200000000000000 = some (.initOut none) ∧
    decodeTableWord 64 0x0300000000000004 = some (.write 4 none) ∧
    decodeTableWord 96 0xFF9C00640300000100000004 = some (.write 4 (some [0x64, 0x00, 0x9C, 0xFF])) ∧
    decodeTableWord 64 0x0400000000000008 = some (.read 8) ∧
    decodeTableWord 64 0x0500000000000000 = some .reset ∧
    decodeTableWord 64 0x0600000000000000 = none

/-- The fields of a response word (R100) and the cause codes (R101). -/
def Obligations.ResponseWordFields : Prop :=
  (∀ (faults : BitVec 8) (data : List Byte),
      (okResponse faults data).word.getLsbD 0 = true ∧ (okResponse faults data).word.extractLsb' 1 3 = 0#3 ∧
        (okResponse faults data).word.extractLsb' 4 4 = 0#4 ∧
        (okResponse faults data).word.extractLsb' 8 8 = faults ∧
        (okResponse faults data).word.extractLsb' 16 16 = 0#16 ∧ (okResponse faults data).data = data) ∧
    (∀ (c : Cause) (faults : BitVec 8),
      (failResponse c faults).word.getLsbD 0 = false ∧ (failResponse c faults).word.extractLsb' 1 3 = 0#3 ∧
        (failResponse c faults).word.extractLsb' 4 4 = causeCode c ∧
        (failResponse c faults).word.extractLsb' 8 8 = faults ∧
        (failResponse c faults).word.extractLsb' 16 16 = 0#16 ∧ (failResponse c faults).data = []) ∧
    causeCode .invalidArgument = 1#4 ∧ causeCode .allocationFailure = 2#4 ∧
    causeCode .alreadyInitialized = 3#4 ∧ causeCode .uninitialized = 4#4 ∧
    causeCode .illegalCommand = 5#4 ∧ causeCode .fault = 6#4

/-! ### Lifecycle -/

/-- `INIT_IN` on a block without storage, with a valid format that fits and an allocator that grants, succeeds with
the effects of R123 and no other; storage and `PFI` are allocated once each (R134). -/
def Obligations.InitInCompletes : Prop :=
  ∀ (s : State) (d : Descriptor), s.cfg.Legal → s.liveStorage = false → inputFormatValid s.cfg d = true →
    d.frameSize ≤ s.cfg.frameMax → capacityFor s.cfg d ≤ s.cfg.storageMax → s.grantNow = true →
    ∃ t, exec (.initIn (some d)) s = .next t ∧ Answered s t (okResponse s.fault []) ∧
      t.fmtIn = d ∧ t.frameSizeIn.toNat = d.channels.toNat * (d.bits.toNat / 8) ∧
      t.capacity.toNat = s.cfg.bufSeconds * d.rate.toNat * t.frameSizeIn.toNat ∧
      t.numFrames.toNat = t.capacity.toNat / t.frameSizeIn.toNat ∧
      t.numFrames.toNat = s.cfg.bufSeconds * d.rate.toNat ∧
      t.regionSize .storage = t.capacity.toNat ∧ (∀ a, Memory.read t.storage a = 0#8) ∧
      t.regionSize .pfi = t.frameSizeIn.toNat ∧ (∀ a, Memory.read t.pfi a = 0#8) ∧
      t.liveStorage = true ∧ t.livePfi = true ∧ t.writeFrameId = 0#32 ∧ t.readFrameId = 0#32 ∧
      t.partialBytesIn = 0#32 ∧ SameOutput s t ∧ t.fault = s.fault ∧ SameEnvironment s t ∧
      t.trace = s.trace ++ [.alloc .storage t.capacity.toNat, .alloc .pfi t.frameSizeIn.toNat]

/-- `INIT_IN` fails with the first cause of R120 that holds, and writes nothing (R124, R218). -/
def Obligations.InitInFailures : Prop :=
  (∀ (s : State) (desc : Option Descriptor), s.liveStorage = true →
      FailsWith .alreadyInitialized (.initIn desc) s) ∧
    (∀ s : State, s.liveStorage = false → FailsWith .invalidArgument (.initIn none) s) ∧
    (∀ (s : State) (d : Descriptor), s.liveStorage = false → inputFormatValid s.cfg d = false →
      FailsWith .invalidArgument (.initIn (some d)) s) ∧
    ∀ (s : State) (d : Descriptor), s.liveStorage = false → inputFormatValid s.cfg d = true →
      (s.cfg.frameMax < d.frameSize ∨ s.cfg.storageMax < capacityFor s.cfg d ∨ s.grantNow = false) →
      FailsWith .allocationFailure (.initIn (some d)) s

/-- `INIT_OUT` with a valid format that fits and an allocator that grants succeeds in every state, with the effects of
R127 and no other; a previous `PFO` is freed before the new one is allocated (R134). -/
def Obligations.InitOutCompletes : Prop :=
  ∀ (s : State) (d : Descriptor), s.cfg.Legal → outputFormatValid s.cfg d = true →
    d.frameSize ≤ s.cfg.frameMax → s.grantNow = true →
    ∃ t, exec (.initOut (some d)) s = .next t ∧ Answered s t (okResponse s.fault []) ∧
      t.fmtOut = d ∧ t.frameSizeOut.toNat = d.channels.toNat * (d.bits.toNat / 8) ∧
      t.regionSize .pfo = t.frameSizeOut.toNat ∧ (∀ a, Memory.read t.pfo a = 0#8) ∧ t.livePfo = true ∧
      t.partialBytesOut = 0#32 ∧ t.writeFrameId = 0#32 ∧ t.readFrameId = 0#32 ∧
      SameInput s t ∧ t.fault = s.fault ∧ SameEnvironment s t ∧
      t.trace = s.trace ++ ((if s.livePfo then [.free .pfo] else []) ++ [.alloc .pfo t.frameSizeOut.toNat])

/-- `INIT_OUT` fails with the first cause of R125 that holds, and writes nothing (R128, R218). -/
def Obligations.InitOutFailures : Prop :=
  (∀ s : State, FailsWith .invalidArgument (.initOut none) s) ∧
    (∀ (s : State) (d : Descriptor), outputFormatValid s.cfg d = false →
      FailsWith .invalidArgument (.initOut (some d)) s) ∧
    ∀ (s : State) (d : Descriptor), outputFormatValid s.cfg d = true →
      (s.cfg.frameMax < d.frameSize ∨ s.grantNow = false) → FailsWith .allocationFailure (.initOut (some d)) s

/-- `RESET` succeeds in every state: every register of R21 to R32 is zero, the memories are empty and freed, `FAULT`
and the other ports are not touched (R130, R132). -/
def Obligations.ResetCompletes : Prop :=
  ∀ s : State, ∃ t, exec .reset s = .next t ∧ Answered s t (okResponse s.fault []) ∧
    t.liveStorage = false ∧ t.livePfi = false ∧ t.livePfo = false ∧
    t.regionSize .storage = 0 ∧ t.regionSize .pfi = 0 ∧ t.regionSize .pfo = 0 ∧
    (∀ a, Memory.read t.storage a = 0#8 ∧ Memory.read t.pfi a = 0#8 ∧ Memory.read t.pfo a = 0#8) ∧
    t.fmtIn = Descriptor.zero ∧ t.fmtOut = Descriptor.zero ∧ t.frameSizeIn = 0#32 ∧ t.frameSizeOut = 0#32 ∧
    t.numFrames = 0#32 ∧ t.capacity = 0#32 ∧ t.writeFrameId = 0#32 ∧ t.readFrameId = 0#32 ∧
    t.partialBytesIn = 0#32 ∧ t.partialBytesOut = 0#32 ∧ t.fault = s.fault ∧ SameEnvironment s t ∧
    t.grants = s.grants ∧ t.draws = s.draws ∧ t.trace = s.trace ++ s.frees

/-- `RESET` is accepted in every state, with partial frames pending or not, and idempotent: a second one succeeds, frees
nothing, and leaves every register and memory as the first left it; and on a block that owns no region it frees nothing
and writes the values the registers already hold (R131). -/
def Obligations.ResetIsIdempotent : Prop :=
  (∀ s : State, ∃ t u, exec .reset s = .next t ∧ exec .reset t = .next u ∧
      Answered s t (okResponse s.fault []) ∧ Answered t u (okResponse s.fault []) ∧
      t.partialBytesIn = 0#32 ∧ t.partialBytesOut = 0#32 ∧ SameBlock t u ∧ u.fault = t.fault ∧ u.trace = t.trace) ∧
    ∀ s : State, s.Legal → s.liveStorage = false → s.livePfi = false → s.livePfo = false →
      ∃ t, exec .reset s = .next t ∧ SameBlock s t ∧ t.fault = s.fault ∧ t.trace = s.trace

/-- Hardware reset and `RESET` leave the same values in every register of R21 to R32 and every memory; `RESET` keeps
`FAULT` and the other ports, hardware reset clears `FAULT` and idles every port (R242). -/
def Obligations.ResetAgainstHardReset : Prop :=
  ∀ s : State, ∃ t, exec .reset s = .next t ∧ Answered s t (okResponse s.fault []) ∧ SameBlock t s.hardReset ∧
    t.fault = s.fault ∧ s.hardReset.fault = 0#8 ∧
    (∀ p, p ≠ s.owner → t.ports[p]? = s.ports[p]?) ∧ (∀ ph ∈ s.hardReset.ports, ph = .idle)

/-- How the commands move the pair (`LIVE_STORAGE`, `LIVE_PFO`), by the `OK` bit of the owner's response (R133). A
failed command never moves it. A command that answers `OK = 1` moves it to the table's entry. `INIT_IN` on storage never
succeeds; without storage it succeeds exactly when the format is valid, fits and is granted, and `INIT_OUT` likewise in
every state; `RESET` always succeeds; `WRITE` and `READ` fail with `Uninitialized` exactly without storage; and a `READ`
of `LEN >= 1` bytes on a legal input-only block is silence if the ring is empty, else the fault `F_NOOUT`. -/
def Obligations.LifecycleTable : Prop :=
  ∀ (i : Instr) (s t : State) (r : Response), exec i s = .next t → t.ports[s.owner]? = some (.responding r) →
    (r.ok = false → t.liveStorage = s.liveStorage ∧ t.livePfo = s.livePfo) ∧
      (∀ desc, i = .initIn desc →
        (r.ok = true → t.liveStorage = true ∧ t.livePfo = s.livePfo) ∧
          (s.liveStorage = true → r = failResponse .alreadyInitialized s.fault) ∧
          (r.ok = true ↔ s.liveStorage = false ∧ ∃ d, desc = some d ∧ inputFormatValid s.cfg d = true ∧
            d.frameSize ≤ s.cfg.frameMax ∧ capacityFor s.cfg d ≤ s.cfg.storageMax ∧ s.grantNow = true)) ∧
      (∀ desc, i = .initOut desc →
        (r.ok = true → t.liveStorage = s.liveStorage ∧ t.livePfo = true) ∧
          (r.ok = true ↔ ∃ d, desc = some d ∧ outputFormatValid s.cfg d = true ∧
            d.frameSize ≤ s.cfg.frameMax ∧ s.grantNow = true)) ∧
      (i = .reset → r.ok = true ∧ t.liveStorage = false ∧ t.livePfo = false) ∧
      (∀ len bytes, i = .write len bytes → t.liveStorage = s.liveStorage ∧ t.livePfo = s.livePfo ∧
        (s.liveStorage = false ↔ r = failResponse .uninitialized s.fault)) ∧
      ∀ len, i = .read len → t.liveStorage = s.liveStorage ∧ t.livePfo = s.livePfo ∧
        (s.liveStorage = false ↔ r = failResponse .uninitialized s.fault) ∧
        (s.Legal → s.liveStorage = true → s.livePfo = false → len ≠ 0#32 →
          r = (if s.readFrameId = s.writeFrameId then okResponse s.fault (zeros len.toNat)
            else failResponse .fault (s.fault ||| 0x01#8)))

/-- Between a successful `INIT_*` and the next release a region is allocated once and freed once: every step keeps the
history of allocate and free events in turn and in agreement with the ownership bits (R30, R134). The history is kept in the model's field `trace`: log entry 12. -/
def Obligations.StepKeepsAllocationHistory : Prop :=
  ∀ s t : State, s.Legal → s.HistoryLegal → step s = .next t → t.HistoryLegal

/-! ### The write path -/

/-- `WRITE` fails with the first cause of R150 that holds, and writes nothing (R218, R220). -/
def Obligations.WriteFailures : Prop :=
  (∀ (s : State) (len : Word) (bytes : Option (List Byte)), s.liveStorage = false →
      FailsWith .uninitialized (.write len bytes) s) ∧
    (∀ (s : State) (bytes : Option (List Byte)), s.liveStorage = true →
      FailsWith .invalidArgument (.write 0#32 bytes) s) ∧
    ∀ (s : State) (len : Word), s.liveStorage = true → len ≠ 0#32 → FailsWith .invalidArgument (.write len none) s

/-- `WRITE` with storage and a payload always succeeds, and the ring is a lossy queue of frames: the bytes held and the
payload are cut into frames, the newest `numFrames - 1` frames stay unread, the rest is held (R156, R157, R217). -/
def Obligations.WriteCompletes : Prop :=
  ∀ (s : State) (len : Word) (b : List Byte), s.Legal → s.liveStorage = true → len ≠ 0#32 →
    b.length = len.toNat →
    ∃ t, exec (.write len (some b)) s = .next t ∧ Answered s t (okResponse s.fault []) ∧
      t.held = (s.held ++ b).drop ((s.held ++ b).length / s.frameSizeIn.toNat * s.frameSizeIn.toNat) ∧
      t.partialBytesIn.toNat =
        (if (s.held ++ b).length % s.frameSizeIn.toNat = 0 then 0
          else s.frameSizeIn.toNat - (s.held ++ b).length % s.frameSizeIn.toNat) ∧
      t.unreadFrames =
        newest (s.numFrames.toNat - 1) (s.unreadFrames ++
          framesOf s.frameSizeIn.toNat ((s.held ++ b).length / s.frameSizeIn.toNat) (s.held ++ b)) ∧
      t.unread =
        min (s.unread + (s.held ++ b).length / s.frameSizeIn.toNat) (s.numFrames.toNat - 1) ∧
      t.writeFrameId.toNat =
        (s.writeFrameId.toNat + (s.held ++ b).length / s.frameSizeIn.toNat) % s.numFrames.toNat ∧
      t.readFrameId.toNat =
        (s.readFrameId.toNat +
          (s.unread + (s.held ++ b).length / s.frameSizeIn.toNat - (s.numFrames.toNat - 1))) % s.numFrames.toNat ∧
      t.frameSizeIn = s.frameSizeIn ∧ t.numFrames = s.numFrames ∧ t.capacity = s.capacity ∧ t.fmtIn = s.fmtIn ∧
      t.liveStorage = true ∧ t.livePfi = s.livePfi ∧ SameOutput s t ∧ t.fault = s.fault ∧ SameEnvironment s t ∧
      NoTraffic s t

/-- `WRITE` stores to the slots it commits, one slot for each whole frame of the bytes held and the payload, starting at
the write cursor; every other byte of `STORAGE` reads as before, and `PFI` is zero beyond the bytes it holds (R65, R66,
R68, R153). -/
def Obligations.WriteStoresOnlyItsSlots : Prop :=
  ∀ (s t : State) (len : Word) (b : List Byte), s.Legal → exec (.write len (some b)) s = .next t →
    (∀ a, (∀ j < (s.held ++ b).length / s.frameSizeIn.toNat,
        a < s.slotAddr (BitVec.ofNat 32 ((s.writeFrameId.toNat + j) % s.numFrames.toNat)) ∨
        s.slotAddr (BitVec.ofNat 32 ((s.writeFrameId.toNat + j) % s.numFrames.toNat)) + s.frameSizeIn.toNat ≤ a) →
      Memory.read t.storage a = Memory.read s.storage a) ∧
    (∀ a, t.heldIn ≤ a → Memory.read t.pfi a = 0#8) ∧ t.pfo = s.pfo

/-- What is stored depends only on the stream of payload bytes, never on how it was cut into commands: two `WRITE`s one
after the other leave exactly the state of one `WRITE` of both payloads (R156). -/
def Obligations.WriteSplitsAnywhere : Prop :=
  ∀ (s : State) (b c : List Byte), s.Legal → s.liveStorage = true → b ≠ [] → c ≠ [] →
    (b ++ c).length < 2 ^ 32 →
    ∃ t u, exec (.write (BitVec.ofNat 32 b.length) (some b)) s = .next t ∧
      exec (.write (BitVec.ofNat 32 c.length) (some c)) t = .next u ∧
      exec (.write (BitVec.ofNat 32 (b ++ c).length) (some (b ++ c))) s = .next u

/-- The cursor-advance policy: the write cursor moves on by one modulo `numFrames`; the oldest unread frame is discarded
exactly when the cursors would collide, which is when `numFrames - 1` were unread; the cursors are never equal afterwards;
nothing else changes (R152). -/
def Obligations.AdvanceDiscardsTheOldest : Prop :=
  ∀ s : State, 2 ≤ s.numFrames.toNat → s.writeFrameId.toNat < s.numFrames.toNat →
    s.readFrameId.toNat < s.numFrames.toNat →
    s.advanceWrite.writeFrameId.toNat = (s.writeFrameId.toNat + 1) % s.numFrames.toNat ∧
      s.advanceWrite.readFrameId.toNat =
        (if (s.writeFrameId.toNat + 1) % s.numFrames.toNat = s.readFrameId.toNat then
          (s.readFrameId.toNat + 1) % s.numFrames.toNat
        else s.readFrameId.toNat) ∧
      ((s.writeFrameId.toNat + 1) % s.numFrames.toNat = s.readFrameId.toNat ↔ s.unread = s.numFrames.toNat - 1) ∧
      s.advanceWrite.writeFrameId ≠ s.advanceWrite.readFrameId ∧
      s.advanceWrite.unread = min (s.unread + 1) (s.numFrames.toNat - 1) ∧
      SameInput s s.advanceWrite ∧ SameOutput s s.advanceWrite ∧ s.advanceWrite.fault = s.fault ∧
      SameEnvironment s s.advanceWrite ∧ NoTraffic s s.advanceWrite

/-- `CommitFrame(F)` stores the frame in the slot the write cursor names before it moves, no other byte of `STORAGE`
changes, and then the cursors advance (R153). -/
def Obligations.CommitStoresThenAdvances : Prop :=
  ∀ (s : State) (f : List Byte), s.Legal → s.liveStorage = true → f.length = s.frameSizeIn.toNat →
    ∃ t, commitFrame f s = .ok t ∧
      Memory.readBytes t.storage (s.slotAddr s.writeFrameId) s.frameSizeIn.toNat = f ∧
      (∀ a, a < s.slotAddr s.writeFrameId ∨ s.slotAddr s.writeFrameId + s.frameSizeIn.toNat ≤ a →
        Memory.read t.storage a = Memory.read s.storage a) ∧
      t.writeFrameId = s.advanceWrite.writeFrameId ∧ t.readFrameId = s.advanceWrite.readFrameId ∧
      t.pfi = s.pfi ∧ t.partialBytesIn = s.partialBytesIn ∧ SameOutput s t ∧ t.fault = s.fault

/-- `WRITE` runs the same whether or not the output side is configured: from two states with equal cursors and input
sides it leaves equal cursors and input sides, with equal `FAULT` it answers the same, and with an equal owner and equal
ports it leaves equal ports (R158 (h)). -/
def Obligations.WriteIgnoresTheOutputSide : Prop :=
  ∀ (s s' t : State) (len : Word) (bytes : Option (List Byte)), SameCursors s s' → SameInput s s' →
    exec (.write len bytes) s = .next t →
    ∃ t', exec (.write len bytes) s' = .next t' ∧ SameCursors t t' ∧ SameInput t t' ∧
      (s'.fault = s.fault → t'.fault = t.fault ∧ ∃ r, Answered s t r ∧ Answered s' t' r) ∧
      (s'.fault = s.fault → s'.owner = s.owner → s'.ports = s.ports → t'.lock = t.lock ∧ t'.ports = t.ports)

/-! ### The read path -/

/-- `READ` fails with the first cause of R170 that holds, and writes nothing (R218, R220). -/
def Obligations.ReadFailures : Prop :=
  (∀ (s : State) (len : Word), s.liveStorage = false → FailsWith .uninitialized (.read len) s) ∧
    ∀ s : State, s.liveStorage = true → FailsWith .invalidArgument (.read 0#32) s

/-- A `READ` that must convert a frame faults when the output side is not configured or the conversion is not
supported: its sticky bit is set, nothing is delivered, and nothing else is written (R171, R222, R223). -/
def Obligations.ReadFaults : Prop :=
  ∀ (s : State) (len : Word), s.liveStorage = true → len ≠ 0#32 → s.partialBytesOut.toNat < len.toNat →
    s.readFrameId ≠ s.writeFrameId →
    (s.livePfo = false →
      ∃ t, exec (.read len) s = .next t ∧ t.fault = s.fault ||| 0x01#8 ∧ Answered s t (failResponse .fault t.fault) ∧
        SameBlock s t ∧ SameEnvironment s t ∧ NoTraffic s t) ∧
    (s.livePfo = true →
      (s.fmtIn.channels ≠ s.fmtOut.channels ∨ (s.fmtIn.bits.toNat, s.fmtOut.bits.toNat) ∉ s.cfg.convPairs) →
      ∃ t, exec (.read len) s = .next t ∧ t.fault = s.fault ||| 0x02#8 ∧ Answered s t (failResponse .fault t.fault) ∧
        SameBlock s t ∧ SameEnvironment s t ∧ NoTraffic s t)

/-- The underrun policy: a `READ` that finds the ring empty delivers the kept bytes and fills the rest with silence,
succeeds, leaves the cursors, and keeps no tail; with nothing pending it writes nothing at all, with or without an output
side (R174). -/
def Obligations.ReadOfAnEmptyRingIsSilence : Prop :=
  (∀ (s : State) (len : Word), s.liveStorage = true → len ≠ 0#32 → s.partialBytesOut = 0#32 →
      s.readFrameId = s.writeFrameId →
      ∃ t, exec (.read len) s = .next t ∧ Answered s t (okResponse s.fault (zeros len.toNat)) ∧ SameBlock s t ∧
        t.fault = s.fault ∧ SameEnvironment s t ∧ NoTraffic s t) ∧
    ∀ (s : State) (len : Word), s.Legal → s.liveStorage = true → s.partialBytesOut.toNat < len.toNat →
      s.readFrameId = s.writeFrameId →
      ∃ t, exec (.read len) s = .next t ∧
        Answered s t (okResponse s.fault (s.kept ++ zeros (len.toNat - s.partialBytesOut.toNat))) ∧
        SameCursors s t ∧ SameInput s t ∧ t.partialBytesOut = 0#32 ∧ t.pfo = [] ∧ t.frameSizeOut = s.frameSizeOut ∧
        t.fmtOut = s.fmtOut ∧ t.livePfo = s.livePfo ∧ t.fault = s.fault ∧ SameEnvironment s t ∧ NoTraffic s t

/-- A `READ` that needs no conversion the block lacks always succeeds with exactly `LEN` bytes: the kept bytes, then the
unread frames converted, then silence; and it leaves the cursors and the kept bytes as the closed form says (R183,
R217). -/
def Obligations.ReadCompletes : Prop :=
  ∀ (s : State) (len : Word), s.Legal → s.liveStorage = true → len ≠ 0#32 →
    (s.partialBytesOut.toNat < len.toNat → s.readFrameId ≠ s.writeFrameId → s.convSupported = true) →
    ∃ t data, exec (.read len) s = .next t ∧ Answered s t (okResponse s.fault data) ∧
      data = (s.kept ++ (s.unreadFrames.map s.converted).flatten ++ zeros len.toNat).take len.toNat ∧
      data.length = len.toNat ∧
      (if len.toNat ≤ s.partialBytesOut.toNat then
        t.readFrameId = s.readFrameId ∧ t.partialBytesOut.toNat = s.partialBytesOut.toNat - len.toNat ∧
          t.kept = s.kept.drop len.toNat
      else if s.unread = 0 then
        t.readFrameId = s.readFrameId ∧ t.partialBytesOut = 0#32
      else if s.unread ≤ (len.toNat - s.partialBytesOut.toNat) / s.frameSizeOut.toNat then
        t.readFrameId = s.writeFrameId ∧ (∀ a, Memory.read t.pfo a = 0#8) ∧
          t.partialBytesOut.toNat =
            (if (len.toNat - s.partialBytesOut.toNat) % s.frameSizeOut.toNat = 0 then 0
              else s.frameSizeOut.toNat - (len.toNat - s.partialBytesOut.toNat) % s.frameSizeOut.toNat)
      else if (len.toNat - s.partialBytesOut.toNat) % s.frameSizeOut.toNat = 0 then
        t.partialBytesOut = 0#32 ∧
          t.readFrameId.toNat =
            (s.readFrameId.toNat + (len.toNat - s.partialBytesOut.toNat) / s.frameSizeOut.toNat) % s.numFrames.toNat
      else
        t.partialBytesOut.toNat =
            s.frameSizeOut.toNat - (len.toNat - s.partialBytesOut.toNat) % s.frameSizeOut.toNat ∧
          t.readFrameId.toNat =
            (s.readFrameId.toNat + (len.toNat - s.partialBytesOut.toNat) / s.frameSizeOut.toNat + 1) %
              s.numFrames.toNat ∧
          s.unreadFrames[(len.toNat - s.partialBytesOut.toNat) / s.frameSizeOut.toNat]?.map s.converted =
            some (Memory.readBytes t.pfo 0 s.frameSizeOut.toNat)) ∧
      t.writeFrameId = s.writeFrameId ∧ SameInput s t ∧ t.frameSizeOut = s.frameSizeOut ∧ t.fmtOut = s.fmtOut ∧
      t.livePfo = s.livePfo ∧ t.fault = s.fault ∧ SameEnvironment s t ∧ NoTraffic s t

/-- `READ` stores to `PFO` only, within one output frame from address 0, and not at all when the pending bytes outlast
the request or the ring is empty with nothing pending (R173, R174, R181, R182, R184 (g)). -/
def Obligations.ReadStoresOnlyToPfo : Prop :=
  ∀ (s t : State) (len : Word), exec (.read len) s = .next t →
    t.storage = s.storage ∧ t.pfi = s.pfi ∧
      (∀ a, s.regionSize .pfo ≤ a → Memory.read t.pfo a = Memory.read s.pfo a) ∧
      (len.toNat < s.partialBytesOut.toNat → t.pfo = s.pfo) ∧
      (s.partialBytesOut = 0#32 → s.readFrameId = s.writeFrameId → t.pfo = s.pfo)

/-- Round trip: from an empty ring with nothing held or kept, `k <= numFrames - 1` whole frames written and `k` output
frames read give those frames converted, in order, and leave the ring empty; both commands answer `OK = 1`, and with
`FAULT = 0` before the run has met no fault (95 X1, R224). -/
def Obligations.WriteThenReadReturnsTheFrames : Prop :=
  ∀ (s : State) (b : List Byte) (k : Nat), s.Legal → s.liveStorage = true → s.convSupported = true →
    s.readFrameId = s.writeFrameId → s.partialBytesIn = 0#32 → s.partialBytesOut = 0#32 →
    1 ≤ k → k ≤ s.numFrames.toNat - 1 → b.length = k * s.frameSizeIn.toNat → b.length < 2 ^ 32 →
    k * s.frameSizeOut.toNat < 2 ^ 32 →
    ∃ t u, exec (.write (BitVec.ofNat 32 b.length) (some b)) s = .next t ∧
      exec (.read (BitVec.ofNat 32 (k * s.frameSizeOut.toNat))) t = .next u ∧
      Answered s t (okResponse s.fault []) ∧
      Answered t u (okResponse s.fault (((framesOf s.frameSizeIn.toNat k b).map s.converted).flatten)) ∧
      u.readFrameId = u.writeFrameId ∧ u.partialBytesIn = 0#32 ∧ u.partialBytesOut = 0#32 ∧
      u.fault = s.fault ∧ (s.Good → u.Good)

/-- The mandatory conversion: a 16-bit sample `v` becomes the 32-bit `v * 65536`, exactly; two zero bytes come before
the sample's own (R177). -/
def Obligations.WideningIsExact : Prop :=
  (∀ v : Int, -32768 ≤ v → v ≤ 32767 →
      convertSample 16 32 v = v * 65536 ∧ -2147483648 ≤ convertSample 16 32 v ∧
        convertSample 16 32 v ≤ 2147418112 ∧ leSint (leBytes 4 (convertSample 16 32 v)) = v * 65536 ∧
        (convertSample 16 32 v).sign = v.sign ∧ convertSample 16 32 v % 65536 = 0 ∧
        (convertSample 16 32 v = -2147483648 ↔ v = -32768)) ∧
    (∀ v w : Int, convertSample 16 32 v = convertSample 16 32 w → v = w) ∧
    (∀ b0 b1 : Byte, leBytes 4 (convertSample 16 32 (leSint [b0, b1])) = [0, 0, b0, b1]) ∧
    convertSample 16 32 0 = 0 ∧ convertSample 16 32 100 = 6553600 ∧ convertSample 16 32 (-100) = -6553600 ∧
    convertSample 16 32 32767 = 2147418112 ∧ convertSample 16 32 (-32768) = -2147483648 ∧
    convertSample 16 32 (-1) = -65536

/-- A converted frame has the output frame's size, and each channel is its own input channel behind zero bytes
(R176, R178, R179). -/
def Obligations.FramesConvertLaneByLane : Prop :=
  ∀ (fi fo : Descriptor) (f : List Byte), fi.channels = fo.channels → fi.bits.toNat % 8 = 0 →
    fo.bits.toNat % 8 = 0 → fi.bits.toNat ≤ fo.bits.toNat → f.length = fi.frameSize →
    (convertFrame fi fo f).length = fo.frameSize ∧
      ∀ c < fi.channels.toNat,
        slice (convertFrame fi fo f) (c * (fo.bits.toNat / 8)) (fo.bits.toNat / 8) =
          zeros ((fo.bits.toNat - fi.bits.toNat) / 8) ++
            slice f (c * (fi.bits.toNat / 8)) (fi.bits.toNat / 8)

/-! ### Guard, ports and steps -/

/-- A step in which the body of the guard's owner runs is the meaning of the command that port holds, on the state with
the move taken (R200, R204). That a step takes one move of the environment is the model's form: log entries 3 and 6. -/
def Obligations.StepRunsTheHeldCommand : Prop :=
  ∀ (s : State) (req : Request) (i : Instr), s.nextMove = .runBody → s.lock = true →
    s.ports[s.owner]? = some (.holding req) → decode s.cfg.extMax req = .ok i → step s = exec i s.afterMove

/-- An idle port that presents a legal request waits with it latched; one that presents an illegal request is answered
`OK = 0`, `CAUSE = 5`, `FAULTS` as it stands; neither takes the guard or touches the block (R103, R209, R211, R219). -/
def Obligations.PresentedRequests : Prop :=
  ∀ (s : State) (p : Nat) (req : Request), s.nextMove = .present p req → s.ports[p]? = some .idle →
    (∀ i, decode s.cfg.extMax req = .ok i →
      ∃ t, step s = .next t ∧ t.ports = s.ports.set p (.waiting req) ∧ t.lock = s.lock ∧ t.owner = s.owner ∧
        SameBlock s t ∧ t.fault = s.fault ∧ t.cfg = s.cfg ∧ NoTraffic s t) ∧
    (∀ e, decode s.cfg.extMax req = .error e → e ≠ .payload →
      ∃ t, step s = .next t ∧ t.ports = s.ports.set p (.responding (failResponse .illegalCommand s.fault)) ∧
        t.lock = s.lock ∧ t.owner = s.owner ∧ SameBlock s t ∧ t.fault = s.fault ∧ t.cfg = s.cfg ∧ NoTraffic s t)

/-- `TryAcquire` is a test-and-set: a waiting port that finds `LOCK = 0` sets it, becomes `OWNER` and holds; one that
finds `LOCK = 1` stays waiting; nothing else changes (R201). -/
def Obligations.TryAcquireIsTestAndSet : Prop :=
  ∀ (s : State) (p : Nat) (req : Request), s.nextMove = .tryAcquire p → s.ports[p]? = some (.waiting req) →
    ∃ t, step s = .next t ∧
      (if s.lock = false then
        t.lock = true ∧ t.owner = p ∧ t.ports = s.ports.set p (.holding req)
      else t.lock = s.lock ∧ t.owner = s.owner ∧ t.ports = s.ports) ∧
      SameBlock s t ∧ t.fault = s.fault ∧ t.cfg = s.cfg ∧ NoTraffic s t

/-- The response of a port is handed over and the port is idle again; the block is not touched (R205, R211). -/
def Obligations.HandOverIdlesThePort : Prop :=
  ∀ (s : State) (p : Nat) (r : Response), s.nextMove = .handOver p → s.ports[p]? = some (.responding r) →
    ∃ t, step s = .next t ∧ t.ports = s.ports.set p .idle ∧ t.trace = s.trace ++ [.response p r] ∧
      t.lock = s.lock ∧ t.owner = s.owner ∧ SameBlock s t ∧ t.fault = s.fault ∧ t.cfg = s.cfg

/-- Every change of a port's phase is a row of the phase table, or a hardware reset (R211, R240). -/
def Obligations.PhasesMoveByTheTable : Prop :=
  ∀ (s t : State) (p : Nat) (ph ph' : Phase), step s = .next t → s.ports[p]? = some ph → t.ports[p]? = some ph' →
    ph' = ph ∨ (s.nextMove = .hardReset ∧ ph' = .idle) ∨
      (∃ req i, ph = .idle ∧ s.nextMove = .present p req ∧ decode s.cfg.extMax req = .ok i ∧ ph' = .waiting req) ∨
      (∃ req e, ph = .idle ∧ s.nextMove = .present p req ∧ decode s.cfg.extMax req = .error e ∧
        ph' = .responding (failResponse .illegalCommand s.fault)) ∨
      (∃ req, ph = .waiting req ∧ s.nextMove = .tryAcquire p ∧ s.lock = false ∧ t.lock = true ∧ t.owner = p ∧
        ph' = .holding req) ∨
      (∃ req r, ph = .holding req ∧ s.nextMove = .runBody ∧ s.owner = p ∧ t.lock = false ∧ ph' = .responding r) ∨
      (∃ r, ph = .responding r ∧ s.nextMove = .handOver p ∧ ph' = .idle)

/-- Every path of every command releases the guard and answers the owner's port, and only a successful `READ` returns
data bytes (R102, R205). -/
def Obligations.EveryPathReleasesTheGuard : Prop :=
  ∀ (i : Instr) (s t : State), exec i s = .next t →
    ∃ r, Answered s t r ∧ SameEnvironment s t ∧ (r.word.getLsbD 0 = false → r.data = []) ∧
      ((∀ len, i ≠ .read len) → r.data = []) ∧ r.word.extractLsb' 8 8 = t.fault

/-- A `READ` that succeeds is followed by exactly `LEN` data bytes, one that fails by none, and no other command returns
data (R102). -/
def Obligations.OnlyReadsReturnData : Prop :=
  ∀ (i : Instr) (s t : State) (r : Response), s.Legal → exec i s = .next t →
    t.ports[s.owner]? = some (.responding r) →
    (∀ len, i = .read len → r.word.getLsbD 0 = true → r.data.length = len.toNat) ∧
      (r.word.getLsbD 0 = false → r.data = []) ∧ ((∀ len, i ≠ .read len) → r.data = [])

/-- Registers, memories and `FAULT` change only while a command body runs or at hardware reset (R201, R209, R226). -/
def Obligations.OnlyBodiesWriteTheBlock : Prop :=
  ∀ s t : State, step s = .next t → s.nextMove ≠ .runBody → s.nextMove ≠ .hardReset →
    SameBlock s t ∧ t.fault = s.fault

/-- A command that answers `OK = 0` has written no register and no memory, and has written `FAULT` only with
`CAUSE = 6` (R215, R220, R222). -/
def Obligations.FailuresArePrecise : Prop :=
  ∀ (i : Instr) (s t : State) (r : Response), exec i s = .next t → t.ports[s.owner]? = some (.responding r) →
    r.word.getLsbD 0 = false →
    SameBlock s t ∧ t.trace = s.trace ∧ (t.fault ≠ s.fault → r.word.extractLsb' 4 4 = causeCode .fault)

/-- A `FAULT` bit stays set in every step but hardware reset, which clears them all (R33, R222, R240). -/
def Obligations.FaultBitsAreSticky : Prop :=
  (∀ s t : State, step s = .next t → s.nextMove ≠ .hardReset → s.fault &&& t.fault = s.fault) ∧
    ∀ s t : State, step s = .next t → s.nextMove = .hardReset → t.fault = 0#8

/-- What each command leaves alone, whatever its outcome: the entries of the access table that are neither written nor
zeroed (R29). -/
def Obligations.CommandsWriteOnlyTheirRegisters : Prop :=
  (∀ (desc : Option Descriptor) (s t : State), exec (.initIn desc) s = .next t →
      SameOutput s t ∧ t.fault = s.fault) ∧
    (∀ (desc : Option Descriptor) (s t : State), exec (.initOut desc) s = .next t →
      SameInput s t ∧ t.fault = s.fault) ∧
    (∀ (len : Word) (bytes : Option (List Byte)) (s t : State), exec (.write len bytes) s = .next t →
      SameOutput s t ∧ t.frameSizeIn = s.frameSizeIn ∧ t.numFrames = s.numFrames ∧ t.capacity = s.capacity ∧
        t.fmtIn = s.fmtIn ∧ t.liveStorage = s.liveStorage ∧ t.livePfi = s.livePfi ∧ t.fault = s.fault ∧
        NoTraffic s t) ∧
    (∀ (len : Word) (s t : State), exec (.read len) s = .next t →
      SameInput s t ∧ t.writeFrameId = s.writeFrameId ∧ t.frameSizeOut = s.frameSizeOut ∧ t.fmtOut = s.fmtOut ∧
        t.livePfo = s.livePfo ∧ NoTraffic s t) ∧
    ∀ s t : State, exec .reset s = .next t → t.fault = s.fault

/-! ### Reset and the status window -/

/-- After hardware reset, at power-on under any parameters or as a step from any state, every register is zero, the
memories have size zero and every port is idle (R51). -/
def Obligations.ResetStateValues : Prop :=
  ∀ s t : State, t = State.resetWith s.cfg ∨ (s.nextMove = .hardReset ∧ step s = .next t) →
    t.writeFrameId = 0#32 ∧ t.readFrameId = 0#32 ∧ t.partialBytesIn = 0#32 ∧ t.partialBytesOut = 0#32 ∧
      t.frameSizeIn = 0#32 ∧ t.frameSizeOut = 0#32 ∧ t.numFrames = 0#32 ∧ t.capacity = 0#32 ∧
      t.fmtIn = Descriptor.zero ∧ t.fmtOut = Descriptor.zero ∧ t.liveStorage = false ∧ t.livePfi = false ∧
      t.livePfo = false ∧ t.fault = 0#8 ∧ t.lock = false ∧ (∀ sp, t.regionSize sp = 0) ∧
      t.ports.length = s.cfg.nports ∧ ∀ ph ∈ t.ports, ph = .idle

/-- Hardware reset at any moment puts the whole block at its reset values, drops every outstanding command without a
response, and hands every live region back (R240, R241). -/
def Obligations.HardResetRestoresTheResetState : Prop :=
  ∀ s : State, s.nextMove = .hardReset →
    ∃ t, step s = .next t ∧ SameBlock (State.resetWith s.cfg) t ∧ t.fault = 0#8 ∧ t.lock = false ∧
      t.ports = List.replicate s.cfg.nports .idle ∧ t.cfg = s.cfg ∧ t.trace = s.trace ++ s.frees

/-- The status window: each word shows its register, a read hands the word out and changes nothing, a write is ignored
(R35). -/
def Obligations.StatusWindowShowsTheRegisters : Prop :=
  (∀ s : State,
      s.window.toList.drop 1 = [s.fault.setWidth 32, s.writeFrameId, s.readFrameId, s.partialBytesIn,
        s.partialBytesOut, s.frameSizeIn, s.frameSizeOut, s.numFrames, s.capacity, s.fmtIn.w0, s.fmtIn.w1, s.fmtIn.w2,
        s.fmtIn.w3, s.fmtOut.w0, s.fmtOut.w1, s.fmtOut.w2, s.fmtOut.w3] ∧
      (s.windowWord 0).getLsbD 0 = s.liveStorage ∧ (s.windowWord 0).getLsbD 1 = s.livePfi ∧
      (s.windowWord 0).getLsbD 2 = s.livePfo ∧ (s.windowWord 0).extractLsb' 3 29 = 0#29) ∧
    (∀ (s : State) (n : Fin 18), s.nextMove = .readWindow n →
      ∃ t, step s = .next t ∧ t.trace = s.trace ++ [.windowWord n (s.window[n])] ∧ SameBlock s t ∧
        t.fault = s.fault ∧ t.lock = s.lock ∧ t.owner = s.owner ∧ t.ports = s.ports) ∧
    ∀ (s : State) (n : Fin 18) (v : Word), s.nextMove = .writeWindow n v →
      ∃ t, step s = .next t ∧ SameBlock s t ∧ t.fault = s.fault ∧ t.lock = s.lock ∧ t.owner = s.owner ∧
        t.ports = s.ports ∧ NoTraffic s t

/-! ### Invariants -/

/-- Every step from a legal state leads to a legal state (R44, R47, R68, R69). -/
def Obligations.StepKeepsLegal : Prop :=
  ∀ s t : State, s.Legal → step s = .next t → t.Legal

/-- The reset state is legal under all legal parameters, and the test configuration is legal (R10, R44, R51). -/
def Obligations.ResetStateIsLegal : Prop :=
  (∀ c : Config, c.Legal → (State.resetWith c).Legal ∧ (State.resetWith c).HistoryLegal) ∧ Config.T8.Legal ∧
    State.reset.Legal

/-- From a legal state no step stops with a fault: every memory access stays inside its region and no division is by
zero (R13, R45, R66, R76). -/
def Obligations.LegalStepsNeverFault : Prop :=
  ∀ (s : State) (f : Fault), s.Legal → step s ≠ .fault f

/-- In a legal state the body of the command that holds the guard runs to its end (R204). -/
def Obligations.HeldCommandsAlwaysAnswer : Prop :=
  ∀ s : State, s.Legal → s.lock = true → s.nextMove = .runBody → ∃ t, step s = .next t ∧ t.lock = false

/-- The parameters never change, one move is taken in each step, and what was handed out is never taken back
(R7, R49). That the parameters, the moves and what was handed out are fields of the state is the model's form: log
entries 3, 4 and 12. -/
def Obligations.ParametersNeverChange : Prop :=
  ∀ s t : State, step s = .next t →
    t.cfg = s.cfg ∧ t.moves = s.moves + 1 ∧ t.schedule = s.schedule.tail ∧ s.trace <+: t.trace

/-- Equal cursors always mean empty, and at most `numFrames - 1` frames are unread (R44, R50). -/
def Obligations.EqualCursorsMeanEmpty : Prop :=
  ∀ s : State, s.Legal → s.liveStorage = true →
    s.unread ≤ s.numFrames.toNat - 1 ∧ (s.unread = 0 ↔ s.writeFrameId = s.readFrameId)

/-- `PFI` is zero beyond the bytes it holds, and `PFO` is zero when nothing is kept (R41, R42, R68, R69). -/
def Obligations.PfiIsZeroBeyondHeldBytesAndPfoWhenNothingIsKept : Prop :=
  ∀ (s : State) (a : Nat), s.Legal →
    (s.partialBytesIn = 0#32 → Memory.read s.pfi a = 0#8) ∧
      (s.partialBytesIn ≠ 0#32 → s.frameSizeIn.toNat - s.partialBytesIn.toNat ≤ a → Memory.read s.pfi a = 0#8) ∧
      (s.partialBytesOut = 0#32 → Memory.read s.pfo a = 0#8)

/-- Mutual exclusion: two ports never both hold the guard (R201, R203). -/
def Obligations.AtMostOnePortHolds : Prop :=
  ∀ (s : State) (p q : Nat) (req req' : Request), s.Legal → s.ports[p]? = some (.holding req) →
    s.ports[q]? = some (.holding req') → p = q ∧ s.lock = true ∧ s.owner = p

/-! ### Responses as bytes, and good runs -/

/-- A response carried over a byte channel: the low byte of the word (`OK` and `CAUSE`) goes first, then `FAULT`, then
two zero bytes, then the data; and the port that issued the command reads it back with exactly the bytes after it left
(R61, R91, R100, R102). -/
def Obligations.ResponsesTravelLowByteFirst : Prop :=
  ∀ (i : Instr) (s t : State) (r : Response) (rest : List Byte), s.Legal → exec i s = .next t →
    t.ports[s.owner]? = some (.responding r) →
    r.toBytes = [r.cause ++ 0#3 ++ BitVec.ofBool r.ok, t.fault, 0#8, 0#8] ++ r.data ∧
      Response.ofBytes i (r.toBytes ++ rest) = some (r, rest)

/-- The two forms of the end condition agree: in a run without hardware reset that starts with `FAULT = 0` and no
`CAUSE = 6` answered, `FAULT = 0` at the end exactly when no command answered `CAUSE = 6`; and a run that ends with
`FAULT = 0` had it at its start (R222, R224). The moves of the run are those of the schedule: log entry 3. -/
def Obligations.GoodRunsAnswerNoFault : Prop :=
  ∀ (k : Nat) (s t : State), k ≤ s.schedule.length → (∀ m ∈ s.schedule.take k, m ≠ .hardReset) →
    core.run k s = .next t →
    (t.Good → s.Good) ∧ (s.Good → s.NoFaultAnswered → (t.Good ↔ t.NoFaultAnswered))

/-- The round trip as a good run of the whole machine: on a quiet block with `FAULT = 0`, one port issues the `WRITE` and
the same or another port then the `READ`; after these eight moves the run is over with `FAULT = 0`, both responses have
been handed over with `OK = 1`, and the data are the frames converted, in order (R211, R224, 95 X1). The moves are the
model's: log entry 3. -/
def Obligations.RoundTripIsAGoodRun : Prop :=
  ∀ (s : State) (b : List Byte) (k p q : Nat), s.Legal → s.liveStorage = true → s.convSupported = true →
    s.readFrameId = s.writeFrameId → s.partialBytesIn = 0#32 → s.partialBytesOut = 0#32 →
    1 ≤ k → k ≤ s.numFrames.toNat - 1 → b.length = k * s.frameSizeIn.toNat → b.length < 2 ^ 32 →
    k * s.frameSizeOut.toNat < 2 ^ 32 → s.Quiet → s.Good → p < s.ports.length → q < s.ports.length →
    s.schedule = commandMoves p (.write (BitVec.ofNat 32 b.length) (some b)) ++
      commandMoves q (.read (BitVec.ofNat 32 (k * s.frameSizeOut.toNat))) →
    ∃ t, GoodRun 8 s t ∧
      t.trace = s.trace ++ [.response p (okResponse 0#8 []),
        .response q (okResponse 0#8 (((framesOf s.frameSizeIn.toNat k b).map s.converted).flatten))] ∧
      t.readFrameId = t.writeFrameId ∧ t.partialBytesIn = 0#32 ∧ t.partialBytesOut = 0#32
end

