-- ==== Sys2Proof/Laws/Bytes.lean ====
section
/-! SUPPORT. Bytes and the integers they stand for (spec/00_scope.md rule R12). -/

namespace Sys2Proof

@[simp] theorem length_leBytes (n : Nat) (v : Int) : (leBytes n v).length = n := by
  induction n generalizing v with
  | zero => rfl
  | succ n ih => simp [leBytes, ih]

@[simp] theorem length_slice (bs : List Byte) (a n : Nat) : (slice bs a n).length = min n (bs.length - a) := by
  simp [slice]

theorem leUint_lt (bs : List Byte) : leUint bs < 256 ^ bs.length := by
  induction bs with
  | nil => simp [leUint]
  | cons b bs ih =>
    have := b.isLt
    rw [leUint, List.length_cons, pow_succ]
    omega

theorem toNat_byte_ofInt (v : Int) : ((BitVec.ofInt 8 v).toNat : Int) = v % 256 := by
  rw [BitVec.toNat_ofInt]
  have h := Int.emod_nonneg v (show (256 : Int) ≠ 0 by omega)
  simpa using h

/-- A remainder by `256 * m`, one byte at a time. -/
theorem emod_byte_mul (v m : Int) : v % (256 * m) = v % 256 + 256 * (v / 256 % m) := by
  rw [Int.emod_def v (256 * m), Int.emod_def (v / 256) m, Int.ediv_ediv_of_nonneg (by omega : (0 : Int) ≤ 256)]
  have := Int.emod_add_mul_ediv v 256
  linear_combination -this

/-- The bytes of an integer, read back, are the integer modulo `256^n`. -/
theorem leUint_leBytes (n : Nat) (v : Int) : ((leUint (leBytes n v) : Nat) : Int) = v % 256 ^ n := by
  induction n generalizing v with
  | zero => simp [leBytes, leUint]
  | succ n ih =>
    rw [leBytes, leUint]
    push_cast
    rw [toNat_byte_ofInt, ih, pow_succ, mul_comm ((256 : Int) ^ n) 256, emod_byte_mul]

/-- A natural number that fits is read back as itself. -/
theorem leUint_leBytes_natCast {n v : Nat} (h : v < 256 ^ n) : leUint (leBytes n (v : Int)) = v := by
  have := leUint_leBytes n (v : Int)
  rw [Int.emod_eq_of_lt (by positivity) (by exact_mod_cast h)] at this
  exact_mod_cast this

/-- `le_bytes` only looks at the integer modulo `256^n`. -/
theorem leBytes_congr {n : Nat} {v w : Int} (h : v % 256 ^ n = w % 256 ^ n) : leBytes n v = leBytes n w := by
  induction n generalizing v w with
  | zero => rfl
  | succ n ih =>
    rw [pow_succ, mul_comm ((256 : Int) ^ n) 256] at h
    have hlow : v % 256 = w % 256 := by
      have := congrArg (· % (256 : Int)) h
      simpa [Int.emod_emod_of_dvd, Dvd.intro] using this
    have hhigh : v / 256 % 256 ^ n = w / 256 % 256 ^ n := by
      rw [emod_byte_mul, emod_byte_mul, hlow] at h
      omega
    rw [leBytes, leBytes, ih hhigh]
    congr 1
    apply BitVec.eq_of_toNat_eq
    have h1 := toNat_byte_ofInt v
    have h2 := toNat_byte_ofInt w
    omega

/-- The bytes of the number some bytes stand for are those bytes. -/
theorem leBytes_leUint (bs : List Byte) : leBytes bs.length (leUint bs : Int) = bs := by
  induction bs with
  | nil => rfl
  | cons b bs ih =>
    have hb := b.isLt
    rw [List.length_cons, leBytes, leUint]
    push_cast
    rw [show ((b.toNat : Int) + 256 * (leUint bs : Int)) / 256 = leUint bs by omega, ih]
    congr 1
    apply BitVec.eq_of_toNat_eq
    have := toNat_byte_ofInt ((b.toNat : Int) + 256 * (leUint bs : Int))
    omega

/-- The bytes of the signed integer some bytes stand for are those bytes (R12). -/
theorem leBytes_leSint (bs : List Byte) : leBytes bs.length (leSint bs) = bs := by
  have hlt := leUint_lt bs
  have hpow : (2 : Nat) ^ (8 * bs.length) = 256 ^ bs.length := by
    rw [pow_mul]
    norm_num
  rw [← hpow] at hlt
  conv_rhs => rw [← leBytes_leUint bs]
  apply leBytes_congr
  have hcast : (256 : Int) ^ bs.length = ((2 ^ (8 * bs.length) : Nat) : Int) := by
    rw [hpow]
    push_cast
    rfl
  rw [hcast, leSint, BitVec.toInt_eq_toNat_bmod, BitVec.toNat_ofNat, Nat.mod_eq_of_lt hlt, Int.bmod_emod]

/-- Multiplying by `256^k` puts `k` zero bytes in front (R177, R178). -/
theorem leBytes_mul_pow (k n : Nat) (v : Int) : leBytes (k + n) (v * 256 ^ k) = zeros k ++ leBytes n v := by
  induction k with
  | zero => simp
  | succ k ih =>
    rw [show k + 1 + n = (k + n) + 1 by omega, leBytes, pow_succ, ← mul_assoc,
      Int.mul_ediv_cancel _ (by omega), ih]
    have h : BitVec.ofInt 8 (v * 256 ^ k * 256) = 0#8 := by
      apply BitVec.eq_of_toNat_eq
      have := toNat_byte_ofInt (v * 256 ^ k * 256)
      rw [Int.mul_emod_left] at this
      exact_mod_cast this
    rw [h]
    rfl

end Sys2Proof
end

