-- ==== Sys2Proof/Laws/Channel.lean ====
section
/-! SUPPORT. The fields and the byte form of responses (spec/30_encoding.md rules R91, R100 to R102). -/

namespace Sys2Proof.Machine

/-! ### The fields of a response -/

@[simp] theorem okResponse_ok (faults : BitVec 8) (data : List Byte) : (okResponse faults data).ok = true := by
  simp only [Response.ok, okResponse, responseWord]
  revert faults
  decide

@[simp] theorem failResponse_ok (c : Cause) (faults : BitVec 8) : (failResponse c faults).ok = false := by
  simp only [Response.ok, failResponse, responseWord]
  cases c <;> (revert faults; decide)

@[simp] theorem okResponse_cause (faults : BitVec 8) (data : List Byte) : (okResponse faults data).cause = 0#4 := by
  simp only [Response.cause, okResponse, responseWord]
  revert faults
  decide

@[simp] theorem failResponse_cause (c : Cause) (faults : BitVec 8) : (failResponse c faults).cause = causeCode c := by
  simp only [Response.cause, failResponse, responseWord]
  cases c <;> (revert faults; decide)

@[simp] theorem okResponse_data (faults : BitVec 8) (data : List Byte) : (okResponse faults data).data = data := rfl

@[simp] theorem failResponse_data (c : Cause) (faults : BitVec 8) : (failResponse c faults).data = [] := rfl

/-! ### Bytes -/

/-- The word at the head of the bytes of a word is that word. -/
@[simp] theorem wordAt_leBytes (w : Word) (rest : List Byte) : wordAt (leBytes 4 w.toNat ++ rest) 0 = w := by
  have hlen : (leBytes 4 w.toNat).length = 4 := length_leBytes 4 _
  have htake : (leBytes 4 w.toNat ++ rest).take 4 = leBytes 4 w.toNat := by
    rw [List.take_append_of_le_length hlen.ge, List.take_of_length_le hlen.le]
  rw [wordAt, slice, List.drop_zero, htake, leUint_leBytes_natCast (by have := w.isLt; omega), BitVec.ofNat_toNat,
    BitVec.setWidth_eq]

@[simp] theorem Response.length_toBytes (r : Response) : r.toBytes.length = 4 + r.data.length := by
  simp [Response.toBytes]

@[simp] theorem Response.wordAt_toBytes (r : Response) (rest : List Byte) : wordAt (r.toBytes ++ rest) 0 = r.word := by
  rw [Response.toBytes, List.append_assoc, wordAt_leBytes]

/-- Reading a response from a stream: the word, then as many data bytes as the command makes of it, or `none` when the
stream is shorter. -/
theorem Response.ofBytes_eq_some {i : Instr} {bs rest : List Byte} {r : Response} :
    Response.ofBytes i bs = some (r, rest) ↔
      4 + Response.dataLength i (wordAt bs 0) ≤ bs.length ∧ r.word = wordAt bs 0 ∧
        r.data = (bs.drop 4).take (Response.dataLength i (wordAt bs 0)) ∧
        rest = bs.drop (4 + Response.dataLength i (wordAt bs 0)) := by
  obtain ⟨word, data⟩ := r
  simp only [Response.ofBytes]
  split_ifs with h
  · simp only [false_iff, not_and]
    omega
  · simp only [Option.some.injEq, Prod.mk.injEq, Response.mk.injEq]
    constructor
    · rintro ⟨⟨rfl, rfl⟩, rfl⟩
      exact ⟨by omega, rfl, rfl, rfl⟩
    · rintro ⟨-, rfl, rfl, rfl⟩
      exact ⟨⟨rfl, rfl⟩, rfl⟩

end Sys2Proof.Machine
end

