-- ==== Sys2Proof/Laws/Encoding.lean ====
section
/-! SUPPORT. The fields of a command word (spec/30_encoding.md rule R92). -/

namespace Sys2Proof

variable (c : BitVec 8) (r : BitVec 23) (p : Bool) (l : Word)

@[simp] theorem opcField_fieldsWord : opcField (fieldsWord c r p l) = c := by
  apply BitVec.eq_of_getLsbD_eq
  intro i hi
  simp only [opcField, fieldsWord, BitVec.getLsbD_extractLsb', BitVec.getLsbD_cast, BitVec.getLsbD_append, hi,
    decide_true, Bool.true_and]
  rw [if_neg (by omega), if_neg (by omega), if_neg (by omega)]
  congr 1
  omega

@[simp] theorem rsvField_fieldsWord : rsvField (fieldsWord c r p l) = r := by
  apply BitVec.eq_of_getLsbD_eq
  intro i hi
  simp only [rsvField, fieldsWord, BitVec.getLsbD_extractLsb', BitVec.getLsbD_cast, BitVec.getLsbD_append, hi,
    decide_true, Bool.true_and]
  rw [if_neg (by omega), if_neg (by omega), if_pos (by omega)]
  congr 1
  omega

@[simp] theorem pvField_fieldsWord : pvField (fieldsWord c r p l) = p := by
  simp only [pvField, fieldsWord, BitVec.getLsbD_cast, BitVec.getLsbD_append]
  simp

@[simp] theorem lenField_fieldsWord : lenField (fieldsWord c r p l) = l := by
  apply BitVec.eq_of_getLsbD_eq
  intro i hi
  simp only [lenField, fieldsWord, BitVec.getLsbD_extractLsb', BitVec.getLsbD_cast, BitVec.getLsbD_append, hi,
    decide_true, Bool.true_and]
  rw [if_pos (by omega)]
  congr 1
  omega

/-- A word is made of its fields. -/
theorem fieldsWord_fields (w : CmdWord) : fieldsWord (opcField w) (rsvField w) (pvField w) (lenField w) = w := by
  apply BitVec.eq_of_getLsbD_eq
  intro i hi
  simp only [opcField, rsvField, pvField, lenField, fieldsWord, BitVec.getLsbD_extractLsb', BitVec.getLsbD_cast,
    BitVec.getLsbD_append, BitVec.getLsbD_ofBool]
  split_ifs with h1 h2 h3
  · simp [h1]
  · have : i = 32 := by omega
    subst this
    simp
  · simp only [show i - 32 - 1 < 23 by omega, decide_true, Bool.true_and]
    congr 1
    omega
  · simp only [show i - 32 - 1 - 23 < 8 by omega, decide_true, Bool.true_and]
    congr 1
    omega

/-- Two words are equal when their fields are. -/
theorem fieldsWord_inj {c' : BitVec 8} {r' : BitVec 23} {p' : Bool} {l' : Word} :
    fieldsWord c r p l = fieldsWord c' r' p' l' ↔ c = c' ∧ r = r' ∧ p = p' ∧ l = l' := by
  constructor
  · intro h
    refine ⟨?_, ?_, ?_, ?_⟩
    · simpa using congrArg opcField h
    · simpa using congrArg rsvField h
    · simpa using congrArg pvField h
    · simpa using congrArg lenField h
  · rintro ⟨rfl, rfl, rfl, rfl⟩
    rfl

/-- Masking a word masks its fields. -/
theorem fieldsWord_and {c' : BitVec 8} {r' : BitVec 23} {p' : Bool} {l' : Word} :
    fieldsWord c r p l &&& fieldsWord c' r' p' l' = fieldsWord (c &&& c') (r &&& r') (p && p') (l &&& l') := by
  apply BitVec.eq_of_getLsbD_eq
  intro i hi
  simp only [fieldsWord, BitVec.getLsbD_and, BitVec.getLsbD_cast, BitVec.getLsbD_append, BitVec.getLsbD_ofBool]
  split_ifs with h1 h2 h3
  · simp
  · cases p <;> cases p' <;> simp
  · simp
  · simp

/-! ### The opcode map by fields (R110) -/

theorem mask_fields (o : Opcode) : o.mask =
    match o with
    | .initIn => fieldsWord 0xFF#8 0x7FFFFF#23 false 0xFFFFFFFF#32
    | .initOut => fieldsWord 0xFF#8 0x7FFFFF#23 false 0xFFFFFFFF#32
    | .write => fieldsWord 0xFF#8 0x7FFFFF#23 false 0#32
    | .read => fieldsWord 0xFF#8 0x7FFFFF#23 true 0#32
    | .reset => fieldsWord 0xFF#8 0x7FFFFF#23 true 0xFFFFFFFF#32 := by
  cases o <;> decide

theorem pattern_fields (o : Opcode) : o.pattern = fieldsWord o.code 0#23 false 0#32 := by
  cases o <;> decide

theorem and_ones_8 (x : BitVec 8) : x &&& 0xFF#8 = x := by
  rw [show (0xFF#8) = BitVec.allOnes 8 by decide, BitVec.and_allOnes]

theorem and_ones_23 (x : BitVec 23) : x &&& 0x7FFFFF#23 = x := by
  rw [show (0x7FFFFF#23) = BitVec.allOnes 23 by decide, BitVec.and_allOnes]

theorem and_ones_32 (x : BitVec 32) : x &&& 0xFFFFFFFF#32 = x := by
  rw [show (0xFFFFFFFF#32) = BitVec.allOnes 32 by decide, BitVec.and_allOnes]

/-- A word selects a row when `OPC` is the row's, `RSV` is zero, and the fields the row does not use are zero. -/
theorem selects_iff (o : Opcode) (w : CmdWord) :
    o.selects w = true ↔ opcField w = o.code ∧ rsvField w = 0#23 ∧
      ((o = .read ∨ o = .reset) → pvField w = false) ∧
      ((o = .initIn ∨ o = .initOut ∨ o = .reset) → lenField w = 0#32) := by
  rw [Opcode.selects, beq_iff_eq, pattern_fields]
  conv_lhs => rw [← fieldsWord_fields w]
  rw [mask_fields]
  cases o <;> simp [fieldsWord_and, fieldsWord_inj, and_ones_8, and_ones_23, and_ones_32]

end Sys2Proof
end

