-- ==== Sys2Proof/Laws/Memory.lean ====
section
/-! SUPPORT. Memories: reading after writing, the canonical form, and the addresses a write touches. -/

namespace Sys2Proof.Machine

/-! ### The canonical form -/

theorem Memory.wfFrom_mono {lo lo' : Nat} {m : Memory} (h : Memory.wfFrom lo m = true) (hlo : lo' ≤ lo) :
    Memory.wfFrom lo' m = true := by
  cases m with
  | nil => rfl
  | cons c m =>
    simp only [Memory.wfFrom, Bool.and_eq_true, decide_eq_true_eq] at h ⊢
    exact ⟨⟨hlo.trans h.1.1, h.1.2⟩, h.2⟩

/-- Below the first address a canonical list reads zero. -/
theorem Memory.read_eq_zero_of_lt {lo a : Nat} {m : Memory} (h : Memory.wfFrom lo m = true) (ha : a < lo) :
    Memory.read m a = 0#8 := by
  induction m generalizing lo with
  | nil => rfl
  | cons c m ih =>
    simp only [Memory.wfFrom, Bool.and_eq_true, decide_eq_true_eq] at h
    rw [Memory.read, if_neg (by omega)]
    exact ih h.2 (by omega)

/-- A write keeps the canonical form. -/
theorem Memory.wfFrom_write {lo a : Nat} {m : Memory} (v : Byte) (h : Memory.wfFrom lo m = true) (ha : lo ≤ a) :
    Memory.wfFrom lo (Memory.write m a v) = true := by
  induction m generalizing lo with
  | nil =>
    rw [Memory.write]
    split_ifs with hv
    · rfl
    · simp only [Memory.wfFrom, Bool.and_eq_true, decide_eq_true_eq]
      exact ⟨⟨ha, hv⟩, trivial⟩
  | cons c m ih =>
    simp only [Memory.wfFrom, Bool.and_eq_true, decide_eq_true_eq] at h
    rw [Memory.write]
    split_ifs with h1 h2 h3 h4
    · simp only [Memory.wfFrom, Bool.and_eq_true, decide_eq_true_eq]
      exact h
    · simp only [Memory.wfFrom, Bool.and_eq_true, decide_eq_true_eq]
      exact ⟨⟨ha, h2⟩, ⟨by omega, h.1.2⟩, h.2⟩
    · exact Memory.wfFrom_mono h.2 (by omega)
    · simp only [Memory.wfFrom, Bool.and_eq_true, decide_eq_true_eq]
      exact ⟨⟨ha, h4⟩, h3 ▸ h.2⟩
    · simp only [Memory.wfFrom, Bool.and_eq_true, decide_eq_true_eq]
      exact ⟨h.1, ih h.2 (by omega)⟩

theorem Memory.wf_write {m : Memory} (a : Nat) (v : Byte) (h : Memory.wf m = true) :
    Memory.wf (Memory.write m a v) = true :=
  Memory.wfFrom_write v h (Nat.zero_le a)

theorem Memory.wf_writeBytes {m : Memory} (a : Nat) (bs : List Byte) (h : Memory.wf m = true) :
    Memory.wf (Memory.writeBytes m a bs) = true := by
  induction bs generalizing m a with
  | nil => exact h
  | cons b bs ih => exact ih (a + 1) (Memory.wf_write a b h)

@[simp] theorem Memory.wf_nil : Memory.wf [] = true := rfl

/-! ### Reading after writing -/

theorem Memory.read_write_same {lo a : Nat} {m : Memory} (v : Byte) (h : Memory.wfFrom lo m = true) :
    Memory.read (Memory.write m a v) a = v := by
  induction m generalizing lo with
  | nil =>
    rw [Memory.write]
    split_ifs with hv
    · exact hv.symm
    · exact if_pos rfl
  | cons c m ih =>
    simp only [Memory.wfFrom, Bool.and_eq_true, decide_eq_true_eq] at h
    rw [Memory.write]
    split_ifs with h1 h2 h3 h4
    · rw [Memory.read, if_neg (by omega), Memory.read_eq_zero_of_lt h.2 (by omega), h2]
    · simp [Memory.read]
    · rw [Memory.read_eq_zero_of_lt h.2 (by omega), h4]
    · simp [Memory.read]
    · rw [Memory.read, if_neg (Ne.symm h3)]
      exact ih h.2

theorem Memory.read_write_other {a a' : Nat} (m : Memory) (v : Byte) (hne : a' ≠ a) :
    Memory.read (Memory.write m a v) a' = Memory.read m a' := by
  induction m with
  | nil =>
    rw [Memory.write]
    split_ifs with hv
    · rfl
    · exact if_neg (Ne.symm hne)
  | cons c m ih =>
    rw [Memory.write]
    split_ifs with h1 h2 h3 h4
    · rfl
    · rw [Memory.read, if_neg (Ne.symm hne)]
    · rw [Memory.read, if_neg (by omega)]
    · rw [Memory.read, if_neg (Ne.symm hne), Memory.read, if_neg (by omega)]
    · rw [Memory.read, Memory.read, ih]

/-- Outside the bytes it stores, a write of a byte array changes nothing. -/
theorem Memory.read_writeBytes_outside {a a' : Nat} (m : Memory) (bs : List Byte)
    (h : a' < a ∨ a + bs.length ≤ a') : Memory.read (Memory.writeBytes m a bs) a' = Memory.read m a' := by
  induction bs generalizing m a with
  | nil => rfl
  | cons b bs ih =>
    simp only [List.length_cons] at h
    rw [Memory.writeBytes, ih _ (by omega), Memory.read_write_other _ _ (by omega)]

/-- Inside the bytes it stores, a write of a byte array is read back. -/
theorem Memory.read_writeBytes_inside {a i : Nat} {m : Memory} {bs : List Byte} (hm : Memory.wf m = true)
    (hi : i < bs.length) : Memory.read (Memory.writeBytes m a bs) (a + i) = bs[i] := by
  induction bs generalizing m a i with
  | nil => simp at hi
  | cons b bs ih =>
    rw [Memory.writeBytes]
    cases i with
    | zero =>
      rw [Memory.read_writeBytes_outside _ _ (by omega)]
      exact Memory.read_write_same b hm
    | succ i =>
      have := ih (a := a + 1) (Memory.wf_write a b hm) (Nat.lt_of_succ_lt_succ hi)
      rw [show a + (i + 1) = a + 1 + i by omega, this]
      rfl

@[simp] theorem Memory.length_readBytes (m : Memory) (a n : Nat) : (Memory.readBytes m a n).length = n := by
  induction n generalizing a with
  | zero => rfl
  | succ n ih => simp [Memory.readBytes, ih]

@[simp] theorem Memory.getElem_readBytes (m : Memory) (a n i : Nat) (h : i < (Memory.readBytes m a n).length) :
    (Memory.readBytes m a n)[i] = Memory.read m (a + i) := by
  induction n generalizing a i with
  | zero => simp [Memory.readBytes] at h
  | succ n ih =>
    cases i with
    | zero => rfl
    | succ i =>
      simp only [Memory.readBytes, List.getElem_cons_succ]
      rw [ih]
      congr 1
      omega

/-- Two stretches of memory are equal when their bytes are. -/
theorem Memory.readBytes_congr {m m' : Memory} {a a' n : Nat}
    (h : ∀ i < n, Memory.read m (a + i) = Memory.read m' (a' + i)) :
    Memory.readBytes m a n = Memory.readBytes m' a' n := by
  apply List.ext_getElem (by simp)
  intro i h1 _
  simpa using h i (by simpa using h1)

/-- What was stored is read back. -/
theorem Memory.readBytes_writeBytes_same {m : Memory} (a : Nat) (bs : List Byte) (hm : Memory.wf m = true) :
    Memory.readBytes (Memory.writeBytes m a bs) a bs.length = bs := by
  apply List.ext_getElem (by simp)
  intro i _ h2
  simpa using Memory.read_writeBytes_inside hm h2

/-- A stretch apart from the stored bytes reads as before. -/
theorem Memory.readBytes_writeBytes_apart {m : Memory} {a a' n : Nat} {bs : List Byte}
    (h : a' + n ≤ a ∨ a + bs.length ≤ a') :
    Memory.readBytes (Memory.writeBytes m a bs) a' n = Memory.readBytes m a' n :=
  Memory.readBytes_congr fun i hi => Memory.read_writeBytes_outside m bs (by omega)

theorem Memory.readBytes_add (m : Memory) (a n k : Nat) :
    Memory.readBytes m a (n + k) = Memory.readBytes m a n ++ Memory.readBytes m (a + n) k := by
  induction n generalizing a with
  | zero => simp [Memory.readBytes]
  | succ n ih =>
    rw [show n + 1 + k = (n + k) + 1 by omega]
    simp only [Memory.readBytes, ih, List.cons_append]
    rw [show a + 1 + n = a + (n + 1) by omega]

/-- A stretch of an empty memory is all zero. -/
theorem Memory.readBytes_nil (a n : Nat) : Memory.readBytes [] a n = zeros n := by
  induction n generalizing a with
  | zero => rfl
  | succ n ih => exact congrArg (List.cons 0#8) (ih (a + 1))

/-- A byte array stored in two pieces. -/
theorem Memory.writeBytes_append (m : Memory) (a : Nat) (bs cs : List Byte) :
    Memory.writeBytes m a (bs ++ cs) = Memory.writeBytes (Memory.writeBytes m a bs) (a + bs.length) cs := by
  induction bs generalizing m a with
  | nil => rfl
  | cons b bs ih =>
    rw [List.cons_append, Memory.writeBytes, ih, Memory.writeBytes, List.length_cons,
      show a + 1 + bs.length = a + (bs.length + 1) by omega]

/-! ### Equal memories are equal lists -/

/-- Two canonical memories that read the same everywhere are the same list. -/
theorem Memory.ext_of_wfFrom {lo : Nat} {m m' : Memory} (h : Memory.wfFrom lo m = true)
    (h' : Memory.wfFrom lo m' = true) (hr : ∀ a, Memory.read m a = Memory.read m' a) : m = m' := by
  induction m generalizing lo m' with
  | nil =>
    cases m' with
    | nil => rfl
    | cons c' m' =>
      simp only [Memory.wfFrom, Bool.and_eq_true, decide_eq_true_eq] at h'
      have := hr c'.1
      simp only [Memory.read, if_true] at this
      exact absurd this.symm h'.1.2
  | cons c m ih =>
    simp only [Memory.wfFrom, Bool.and_eq_true, decide_eq_true_eq] at h
    cases m' with
    | nil =>
      have := hr c.1
      simp only [Memory.read, if_true] at this
      exact absurd this h.1.2
    | cons c' m' =>
      simp only [Memory.wfFrom, Bool.and_eq_true, decide_eq_true_eq] at h'
      have hk : c.1 = c'.1 := by
        rcases Nat.lt_trichotomy c.1 c'.1 with hlt | heq | hgt
        · have := hr c.1
          simp only [Memory.read, if_true, if_neg (Nat.ne_of_gt hlt),
            Memory.read_eq_zero_of_lt h'.2 (Nat.lt_succ_of_lt hlt)] at this
          exact absurd this h.1.2
        · exact heq
        · have := hr c'.1
          simp only [Memory.read, if_true, if_neg (Nat.ne_of_gt hgt),
            Memory.read_eq_zero_of_lt h.2 (Nat.lt_succ_of_lt hgt)] at this
          exact absurd this.symm h'.1.2
      have hb : c.2 = c'.2 := by
        have := hr c.1
        simpa [Memory.read, hk] using this
      have hm : m = m' := by
        refine ih h.2 (hk ▸ h'.2) fun a => ?_
        by_cases ha : a = c.1
        · subst ha
          rw [Memory.read_eq_zero_of_lt h.2 (Nat.lt_succ_self _),
            Memory.read_eq_zero_of_lt h'.2 (hk ▸ Nat.lt_succ_self _)]
        · have := hr a
          rwa [Memory.read, Memory.read, if_neg (Ne.symm ha), if_neg (hk ▸ Ne.symm ha)] at this
      rw [hm, Prod.ext hk hb]

theorem Memory.ext {m m' : Memory} (h : Memory.wf m = true) (h' : Memory.wf m' = true)
    (hr : ∀ a, Memory.read m a = Memory.read m' a) : m = m' :=
  Memory.ext_of_wfFrom h h' hr

/-! ### The addresses that are listed -/

theorem Memory.within_iff {size : Nat} {m : Memory} : Memory.within size m = true ↔ ∀ c ∈ m, c.1 < size := by
  simp [Memory.within]

theorem Memory.within_mono {size size' : Nat} {m : Memory} (h : Memory.within size m = true) (hle : size ≤ size') :
    Memory.within size' m = true :=
  Memory.within_iff.2 fun c hc => (Memory.within_iff.1 h c hc).trans_le hle

theorem Memory.within_write {size a : Nat} {m : Memory} (v : Byte) (h : Memory.within size m = true) (ha : a < size) :
    Memory.within size (Memory.write m a v) = true := by
  induction m with
  | nil =>
    rw [Memory.write]
    split_ifs with hv
    · rfl
    · exact Memory.within_iff.2 fun x hx => by
        rw [List.mem_singleton] at hx
        exact hx ▸ ha
  | cons c m ih =>
    have hc : c.1 < size := Memory.within_iff.1 h c (by simp)
    have hm : Memory.within size m = true :=
      Memory.within_iff.2 fun x hx => Memory.within_iff.1 h x (List.mem_cons_of_mem _ hx)
    have cons : ∀ (x : Host.Cell) (l : Memory), x.1 < size → Memory.within size l = true →
        Memory.within size (x :: l) = true := fun x l hx hl =>
      Memory.within_iff.2 (List.forall_mem_cons.2 ⟨hx, Memory.within_iff.1 hl⟩)
    rw [Memory.write]
    split_ifs
    · exact h
    · exact cons _ _ ha h
    · exact hm
    · exact cons _ _ ha hm
    · exact cons _ _ hc (ih hm)

theorem Memory.within_writeBytes {size a : Nat} {m : Memory} (bs : List Byte) (h : Memory.within size m = true)
    (ha : a + bs.length ≤ size) : Memory.within size (Memory.writeBytes m a bs) = true := by
  induction bs generalizing m a with
  | nil => exact h
  | cons b bs ih =>
    simp only [List.length_cons] at ha
    exact ih (Memory.within_write b h (by omega)) (by omega)

/-- Beyond the listed addresses a memory reads zero. -/
theorem Memory.read_eq_zero_of_within {size a : Nat} {m : Memory} (h : Memory.within size m = true) (ha : size ≤ a) :
    Memory.read m a = 0#8 := by
  induction m with
  | nil => rfl
  | cons c m ih =>
    have hc : c.1 < size := Memory.within_iff.1 h c (by simp)
    rw [Memory.read, if_neg (by omega)]
    exact ih (Memory.within_iff.2 fun x hx => Memory.within_iff.1 h x (List.mem_cons_of_mem _ hx))

/-- A canonical memory whose bytes below `n` are all zero lists nothing below `n`; with every listed address below
`n` it is empty. -/
theorem Memory.eq_nil_of_zero {size : Nat} {m : Memory} (hw : Memory.wf m = true) (h : Memory.within size m = true)
    (hz : ∀ a < size, Memory.read m a = 0#8) : m = [] :=
  Memory.ext hw rfl fun a => by
    rcases Nat.lt_or_ge a size with ha | ha
    · exact hz a ha
    · exact Memory.read_eq_zero_of_within h ha

/-- Filling a memory with zeros empties it (R41, R42). -/
theorem Memory.writeBytes_zeros {size : Nat} {m : Memory} (hw : Memory.wf m = true)
    (h : Memory.within size m = true) : Memory.writeBytes m 0 (zeros size) = [] := by
  refine Memory.eq_nil_of_zero (Memory.wf_writeBytes 0 _ hw) (Memory.within_writeBytes _ h (by simp)) fun a ha => ?_
  have := Memory.read_writeBytes_inside (a := 0) (bs := zeros size) hw (i := a) (by simpa using ha)
  simpa using this

end Sys2Proof.Machine
end

