-- ==== Sys2Proof/Laws/State.lean ====
section
/-! SUPPORT. One lemma per field per update of the state, so that no proof unfolds a record update. -/

namespace Sys2Proof.Machine

variable (s : State)

/-! ### `State.setPort` -/

@[simp] theorem State.setPort_writeFrameId (p : Nat) (ph : Phase) : (s.setPort p ph).writeFrameId = s.writeFrameId := rfl
@[simp] theorem State.setPort_readFrameId (p : Nat) (ph : Phase) : (s.setPort p ph).readFrameId = s.readFrameId := rfl
@[simp] theorem State.setPort_partialBytesIn (p : Nat) (ph : Phase) : (s.setPort p ph).partialBytesIn = s.partialBytesIn := rfl
@[simp] theorem State.setPort_partialBytesOut (p : Nat) (ph : Phase) : (s.setPort p ph).partialBytesOut = s.partialBytesOut := rfl
@[simp] theorem State.setPort_frameSizeIn (p : Nat) (ph : Phase) : (s.setPort p ph).frameSizeIn = s.frameSizeIn := rfl
@[simp] theorem State.setPort_frameSizeOut (p : Nat) (ph : Phase) : (s.setPort p ph).frameSizeOut = s.frameSizeOut := rfl
@[simp] theorem State.setPort_numFrames (p : Nat) (ph : Phase) : (s.setPort p ph).numFrames = s.numFrames := rfl
@[simp] theorem State.setPort_capacity (p : Nat) (ph : Phase) : (s.setPort p ph).capacity = s.capacity := rfl
@[simp] theorem State.setPort_fmtIn (p : Nat) (ph : Phase) : (s.setPort p ph).fmtIn = s.fmtIn := rfl
@[simp] theorem State.setPort_fmtOut (p : Nat) (ph : Phase) : (s.setPort p ph).fmtOut = s.fmtOut := rfl
@[simp] theorem State.setPort_liveStorage (p : Nat) (ph : Phase) : (s.setPort p ph).liveStorage = s.liveStorage := rfl
@[simp] theorem State.setPort_livePfi (p : Nat) (ph : Phase) : (s.setPort p ph).livePfi = s.livePfi := rfl
@[simp] theorem State.setPort_livePfo (p : Nat) (ph : Phase) : (s.setPort p ph).livePfo = s.livePfo := rfl
@[simp] theorem State.setPort_storage (p : Nat) (ph : Phase) : (s.setPort p ph).storage = s.storage := rfl
@[simp] theorem State.setPort_pfi (p : Nat) (ph : Phase) : (s.setPort p ph).pfi = s.pfi := rfl
@[simp] theorem State.setPort_pfo (p : Nat) (ph : Phase) : (s.setPort p ph).pfo = s.pfo := rfl
@[simp] theorem State.setPort_fault (p : Nat) (ph : Phase) : (s.setPort p ph).fault = s.fault := rfl
@[simp] theorem State.setPort_lock (p : Nat) (ph : Phase) : (s.setPort p ph).lock = s.lock := rfl
@[simp] theorem State.setPort_owner (p : Nat) (ph : Phase) : (s.setPort p ph).owner = s.owner := rfl
@[simp] theorem State.setPort_ports (p : Nat) (ph : Phase) : (s.setPort p ph).ports = s.ports.set p ph := rfl
@[simp] theorem State.setPort_cfg (p : Nat) (ph : Phase) : (s.setPort p ph).cfg = s.cfg := rfl
@[simp] theorem State.setPort_schedule (p : Nat) (ph : Phase) : (s.setPort p ph).schedule = s.schedule := rfl
@[simp] theorem State.setPort_moves (p : Nat) (ph : Phase) : (s.setPort p ph).moves = s.moves := rfl
@[simp] theorem State.setPort_grants (p : Nat) (ph : Phase) : (s.setPort p ph).grants = s.grants := rfl
@[simp] theorem State.setPort_draws (p : Nat) (ph : Phase) : (s.setPort p ph).draws = s.draws := rfl
@[simp] theorem State.setPort_trace (p : Nat) (ph : Phase) : (s.setPort p ph).trace = s.trace := rfl

/-! ### `State.respond` -/

@[simp] theorem State.respond_writeFrameId (r : Response) : (s.respond r).writeFrameId = s.writeFrameId := rfl
@[simp] theorem State.respond_readFrameId (r : Response) : (s.respond r).readFrameId = s.readFrameId := rfl
@[simp] theorem State.respond_partialBytesIn (r : Response) : (s.respond r).partialBytesIn = s.partialBytesIn := rfl
@[simp] theorem State.respond_partialBytesOut (r : Response) : (s.respond r).partialBytesOut = s.partialBytesOut := rfl
@[simp] theorem State.respond_frameSizeIn (r : Response) : (s.respond r).frameSizeIn = s.frameSizeIn := rfl
@[simp] theorem State.respond_frameSizeOut (r : Response) : (s.respond r).frameSizeOut = s.frameSizeOut := rfl
@[simp] theorem State.respond_numFrames (r : Response) : (s.respond r).numFrames = s.numFrames := rfl
@[simp] theorem State.respond_capacity (r : Response) : (s.respond r).capacity = s.capacity := rfl
@[simp] theorem State.respond_fmtIn (r : Response) : (s.respond r).fmtIn = s.fmtIn := rfl
@[simp] theorem State.respond_fmtOut (r : Response) : (s.respond r).fmtOut = s.fmtOut := rfl
@[simp] theorem State.respond_liveStorage (r : Response) : (s.respond r).liveStorage = s.liveStorage := rfl
@[simp] theorem State.respond_livePfi (r : Response) : (s.respond r).livePfi = s.livePfi := rfl
@[simp] theorem State.respond_livePfo (r : Response) : (s.respond r).livePfo = s.livePfo := rfl
@[simp] theorem State.respond_storage (r : Response) : (s.respond r).storage = s.storage := rfl
@[simp] theorem State.respond_pfi (r : Response) : (s.respond r).pfi = s.pfi := rfl
@[simp] theorem State.respond_pfo (r : Response) : (s.respond r).pfo = s.pfo := rfl
@[simp] theorem State.respond_fault (r : Response) : (s.respond r).fault = s.fault := rfl
@[simp] theorem State.respond_lock (r : Response) : (s.respond r).lock = false := rfl
@[simp] theorem State.respond_owner (r : Response) : (s.respond r).owner = s.owner := rfl
@[simp] theorem State.respond_ports (r : Response) : (s.respond r).ports = s.ports.set s.owner (.responding r) := rfl
@[simp] theorem State.respond_cfg (r : Response) : (s.respond r).cfg = s.cfg := rfl
@[simp] theorem State.respond_schedule (r : Response) : (s.respond r).schedule = s.schedule := rfl
@[simp] theorem State.respond_moves (r : Response) : (s.respond r).moves = s.moves := rfl
@[simp] theorem State.respond_grants (r : Response) : (s.respond r).grants = s.grants := rfl
@[simp] theorem State.respond_draws (r : Response) : (s.respond r).draws = s.draws := rfl
@[simp] theorem State.respond_trace (r : Response) : (s.respond r).trace = s.trace := rfl

/-! ### `State.recordFault` -/

@[simp] theorem State.recordFault_writeFrameId (c : FaultCode) : (s.recordFault c).writeFrameId = s.writeFrameId := rfl
@[simp] theorem State.recordFault_readFrameId (c : FaultCode) : (s.recordFault c).readFrameId = s.readFrameId := rfl
@[simp] theorem State.recordFault_partialBytesIn (c : FaultCode) : (s.recordFault c).partialBytesIn = s.partialBytesIn := rfl
@[simp] theorem State.recordFault_partialBytesOut (c : FaultCode) : (s.recordFault c).partialBytesOut = s.partialBytesOut := rfl
@[simp] theorem State.recordFault_frameSizeIn (c : FaultCode) : (s.recordFault c).frameSizeIn = s.frameSizeIn := rfl
@[simp] theorem State.recordFault_frameSizeOut (c : FaultCode) : (s.recordFault c).frameSizeOut = s.frameSizeOut := rfl
@[simp] theorem State.recordFault_numFrames (c : FaultCode) : (s.recordFault c).numFrames = s.numFrames := rfl
@[simp] theorem State.recordFault_capacity (c : FaultCode) : (s.recordFault c).capacity = s.capacity := rfl
@[simp] theorem State.recordFault_fmtIn (c : FaultCode) : (s.recordFault c).fmtIn = s.fmtIn := rfl
@[simp] theorem State.recordFault_fmtOut (c : FaultCode) : (s.recordFault c).fmtOut = s.fmtOut := rfl
@[simp] theorem State.recordFault_liveStorage (c : FaultCode) : (s.recordFault c).liveStorage = s.liveStorage := rfl
@[simp] theorem State.recordFault_livePfi (c : FaultCode) : (s.recordFault c).livePfi = s.livePfi := rfl
@[simp] theorem State.recordFault_livePfo (c : FaultCode) : (s.recordFault c).livePfo = s.livePfo := rfl
@[simp] theorem State.recordFault_storage (c : FaultCode) : (s.recordFault c).storage = s.storage := rfl
@[simp] theorem State.recordFault_pfi (c : FaultCode) : (s.recordFault c).pfi = s.pfi := rfl
@[simp] theorem State.recordFault_pfo (c : FaultCode) : (s.recordFault c).pfo = s.pfo := rfl
@[simp] theorem State.recordFault_fault (c : FaultCode) : (s.recordFault c).fault = setFaultBit s.fault c := rfl
@[simp] theorem State.recordFault_lock (c : FaultCode) : (s.recordFault c).lock = s.lock := rfl
@[simp] theorem State.recordFault_owner (c : FaultCode) : (s.recordFault c).owner = s.owner := rfl
@[simp] theorem State.recordFault_ports (c : FaultCode) : (s.recordFault c).ports = s.ports := rfl
@[simp] theorem State.recordFault_cfg (c : FaultCode) : (s.recordFault c).cfg = s.cfg := rfl
@[simp] theorem State.recordFault_schedule (c : FaultCode) : (s.recordFault c).schedule = s.schedule := rfl
@[simp] theorem State.recordFault_moves (c : FaultCode) : (s.recordFault c).moves = s.moves := rfl
@[simp] theorem State.recordFault_grants (c : FaultCode) : (s.recordFault c).grants = s.grants := rfl
@[simp] theorem State.recordFault_draws (c : FaultCode) : (s.recordFault c).draws = s.draws := rfl
@[simp] theorem State.recordFault_trace (c : FaultCode) : (s.recordFault c).trace = s.trace := rfl

/-! ### `State.afterDraw` -/

@[simp] theorem State.afterDraw_writeFrameId : (s.afterDraw).writeFrameId = s.writeFrameId := rfl
@[simp] theorem State.afterDraw_readFrameId : (s.afterDraw).readFrameId = s.readFrameId := rfl
@[simp] theorem State.afterDraw_partialBytesIn : (s.afterDraw).partialBytesIn = s.partialBytesIn := rfl
@[simp] theorem State.afterDraw_partialBytesOut : (s.afterDraw).partialBytesOut = s.partialBytesOut := rfl
@[simp] theorem State.afterDraw_frameSizeIn : (s.afterDraw).frameSizeIn = s.frameSizeIn := rfl
@[simp] theorem State.afterDraw_frameSizeOut : (s.afterDraw).frameSizeOut = s.frameSizeOut := rfl
@[simp] theorem State.afterDraw_numFrames : (s.afterDraw).numFrames = s.numFrames := rfl
@[simp] theorem State.afterDraw_capacity : (s.afterDraw).capacity = s.capacity := rfl
@[simp] theorem State.afterDraw_fmtIn : (s.afterDraw).fmtIn = s.fmtIn := rfl
@[simp] theorem State.afterDraw_fmtOut : (s.afterDraw).fmtOut = s.fmtOut := rfl
@[simp] theorem State.afterDraw_liveStorage : (s.afterDraw).liveStorage = s.liveStorage := rfl
@[simp] theorem State.afterDraw_livePfi : (s.afterDraw).livePfi = s.livePfi := rfl
@[simp] theorem State.afterDraw_livePfo : (s.afterDraw).livePfo = s.livePfo := rfl
@[simp] theorem State.afterDraw_storage : (s.afterDraw).storage = s.storage := rfl
@[simp] theorem State.afterDraw_pfi : (s.afterDraw).pfi = s.pfi := rfl
@[simp] theorem State.afterDraw_pfo : (s.afterDraw).pfo = s.pfo := rfl
@[simp] theorem State.afterDraw_fault : (s.afterDraw).fault = s.fault := rfl
@[simp] theorem State.afterDraw_lock : (s.afterDraw).lock = s.lock := rfl
@[simp] theorem State.afterDraw_owner : (s.afterDraw).owner = s.owner := rfl
@[simp] theorem State.afterDraw_ports : (s.afterDraw).ports = s.ports := rfl
@[simp] theorem State.afterDraw_cfg : (s.afterDraw).cfg = s.cfg := rfl
@[simp] theorem State.afterDraw_schedule : (s.afterDraw).schedule = s.schedule := rfl
@[simp] theorem State.afterDraw_moves : (s.afterDraw).moves = s.moves := rfl
@[simp] theorem State.afterDraw_grants : (s.afterDraw).grants = s.grants.tail := rfl
@[simp] theorem State.afterDraw_draws : (s.afterDraw).draws = s.draws + 1 := rfl
@[simp] theorem State.afterDraw_trace : (s.afterDraw).trace = s.trace := rfl

/-! ### `State.advanceWrite` -/

@[simp] theorem State.advanceWrite_writeFrameId : (s.advanceWrite).writeFrameId = s.nextSlot s.writeFrameId := rfl
@[simp] theorem State.advanceWrite_readFrameId : (s.advanceWrite).readFrameId = if s.nextSlot s.writeFrameId = s.readFrameId then s.nextSlot s.readFrameId else s.readFrameId := rfl
@[simp] theorem State.advanceWrite_partialBytesIn : (s.advanceWrite).partialBytesIn = s.partialBytesIn := rfl
@[simp] theorem State.advanceWrite_partialBytesOut : (s.advanceWrite).partialBytesOut = s.partialBytesOut := rfl
@[simp] theorem State.advanceWrite_frameSizeIn : (s.advanceWrite).frameSizeIn = s.frameSizeIn := rfl
@[simp] theorem State.advanceWrite_frameSizeOut : (s.advanceWrite).frameSizeOut = s.frameSizeOut := rfl
@[simp] theorem State.advanceWrite_numFrames : (s.advanceWrite).numFrames = s.numFrames := rfl
@[simp] theorem State.advanceWrite_capacity : (s.advanceWrite).capacity = s.capacity := rfl
@[simp] theorem State.advanceWrite_fmtIn : (s.advanceWrite).fmtIn = s.fmtIn := rfl
@[simp] theorem State.advanceWrite_fmtOut : (s.advanceWrite).fmtOut = s.fmtOut := rfl
@[simp] theorem State.advanceWrite_liveStorage : (s.advanceWrite).liveStorage = s.liveStorage := rfl
@[simp] theorem State.advanceWrite_livePfi : (s.advanceWrite).livePfi = s.livePfi := rfl
@[simp] theorem State.advanceWrite_livePfo : (s.advanceWrite).livePfo = s.livePfo := rfl
@[simp] theorem State.advanceWrite_storage : (s.advanceWrite).storage = s.storage := rfl
@[simp] theorem State.advanceWrite_pfi : (s.advanceWrite).pfi = s.pfi := rfl
@[simp] theorem State.advanceWrite_pfo : (s.advanceWrite).pfo = s.pfo := rfl
@[simp] theorem State.advanceWrite_fault : (s.advanceWrite).fault = s.fault := rfl
@[simp] theorem State.advanceWrite_lock : (s.advanceWrite).lock = s.lock := rfl
@[simp] theorem State.advanceWrite_owner : (s.advanceWrite).owner = s.owner := rfl
@[simp] theorem State.advanceWrite_ports : (s.advanceWrite).ports = s.ports := rfl
@[simp] theorem State.advanceWrite_cfg : (s.advanceWrite).cfg = s.cfg := rfl
@[simp] theorem State.advanceWrite_schedule : (s.advanceWrite).schedule = s.schedule := rfl
@[simp] theorem State.advanceWrite_moves : (s.advanceWrite).moves = s.moves := rfl
@[simp] theorem State.advanceWrite_grants : (s.advanceWrite).grants = s.grants := rfl
@[simp] theorem State.advanceWrite_draws : (s.advanceWrite).draws = s.draws := rfl
@[simp] theorem State.advanceWrite_trace : (s.advanceWrite).trace = s.trace := rfl

/-! ### `State.advanceRead` -/

@[simp] theorem State.advanceRead_writeFrameId : (s.advanceRead).writeFrameId = s.writeFrameId := rfl
@[simp] theorem State.advanceRead_readFrameId : (s.advanceRead).readFrameId = s.nextSlot s.readFrameId := rfl
@[simp] theorem State.advanceRead_partialBytesIn : (s.advanceRead).partialBytesIn = s.partialBytesIn := rfl
@[simp] theorem State.advanceRead_partialBytesOut : (s.advanceRead).partialBytesOut = s.partialBytesOut := rfl
@[simp] theorem State.advanceRead_frameSizeIn : (s.advanceRead).frameSizeIn = s.frameSizeIn := rfl
@[simp] theorem State.advanceRead_frameSizeOut : (s.advanceRead).frameSizeOut = s.frameSizeOut := rfl
@[simp] theorem State.advanceRead_numFrames : (s.advanceRead).numFrames = s.numFrames := rfl
@[simp] theorem State.advanceRead_capacity : (s.advanceRead).capacity = s.capacity := rfl
@[simp] theorem State.advanceRead_fmtIn : (s.advanceRead).fmtIn = s.fmtIn := rfl
@[simp] theorem State.advanceRead_fmtOut : (s.advanceRead).fmtOut = s.fmtOut := rfl
@[simp] theorem State.advanceRead_liveStorage : (s.advanceRead).liveStorage = s.liveStorage := rfl
@[simp] theorem State.advanceRead_livePfi : (s.advanceRead).livePfi = s.livePfi := rfl
@[simp] theorem State.advanceRead_livePfo : (s.advanceRead).livePfo = s.livePfo := rfl
@[simp] theorem State.advanceRead_storage : (s.advanceRead).storage = s.storage := rfl
@[simp] theorem State.advanceRead_pfi : (s.advanceRead).pfi = s.pfi := rfl
@[simp] theorem State.advanceRead_pfo : (s.advanceRead).pfo = s.pfo := rfl
@[simp] theorem State.advanceRead_fault : (s.advanceRead).fault = s.fault := rfl
@[simp] theorem State.advanceRead_lock : (s.advanceRead).lock = s.lock := rfl
@[simp] theorem State.advanceRead_owner : (s.advanceRead).owner = s.owner := rfl
@[simp] theorem State.advanceRead_ports : (s.advanceRead).ports = s.ports := rfl
@[simp] theorem State.advanceRead_cfg : (s.advanceRead).cfg = s.cfg := rfl
@[simp] theorem State.advanceRead_schedule : (s.advanceRead).schedule = s.schedule := rfl
@[simp] theorem State.advanceRead_moves : (s.advanceRead).moves = s.moves := rfl
@[simp] theorem State.advanceRead_grants : (s.advanceRead).grants = s.grants := rfl
@[simp] theorem State.advanceRead_draws : (s.advanceRead).draws = s.draws := rfl
@[simp] theorem State.advanceRead_trace : (s.advanceRead).trace = s.trace := rfl

/-! ### `State.setPartialIn` -/

@[simp] theorem State.setPartialIn_writeFrameId (n : Nat) : (s.setPartialIn n).writeFrameId = s.writeFrameId := rfl
@[simp] theorem State.setPartialIn_readFrameId (n : Nat) : (s.setPartialIn n).readFrameId = s.readFrameId := rfl
@[simp] theorem State.setPartialIn_partialBytesIn (n : Nat) : (s.setPartialIn n).partialBytesIn = BitVec.ofNat 32 n := rfl
@[simp] theorem State.setPartialIn_partialBytesOut (n : Nat) : (s.setPartialIn n).partialBytesOut = s.partialBytesOut := rfl
@[simp] theorem State.setPartialIn_frameSizeIn (n : Nat) : (s.setPartialIn n).frameSizeIn = s.frameSizeIn := rfl
@[simp] theorem State.setPartialIn_frameSizeOut (n : Nat) : (s.setPartialIn n).frameSizeOut = s.frameSizeOut := rfl
@[simp] theorem State.setPartialIn_numFrames (n : Nat) : (s.setPartialIn n).numFrames = s.numFrames := rfl
@[simp] theorem State.setPartialIn_capacity (n : Nat) : (s.setPartialIn n).capacity = s.capacity := rfl
@[simp] theorem State.setPartialIn_fmtIn (n : Nat) : (s.setPartialIn n).fmtIn = s.fmtIn := rfl
@[simp] theorem State.setPartialIn_fmtOut (n : Nat) : (s.setPartialIn n).fmtOut = s.fmtOut := rfl
@[simp] theorem State.setPartialIn_liveStorage (n : Nat) : (s.setPartialIn n).liveStorage = s.liveStorage := rfl
@[simp] theorem State.setPartialIn_livePfi (n : Nat) : (s.setPartialIn n).livePfi = s.livePfi := rfl
@[simp] theorem State.setPartialIn_livePfo (n : Nat) : (s.setPartialIn n).livePfo = s.livePfo := rfl
@[simp] theorem State.setPartialIn_storage (n : Nat) : (s.setPartialIn n).storage = s.storage := rfl
@[simp] theorem State.setPartialIn_pfi (n : Nat) : (s.setPartialIn n).pfi = s.pfi := rfl
@[simp] theorem State.setPartialIn_pfo (n : Nat) : (s.setPartialIn n).pfo = s.pfo := rfl
@[simp] theorem State.setPartialIn_fault (n : Nat) : (s.setPartialIn n).fault = s.fault := rfl
@[simp] theorem State.setPartialIn_lock (n : Nat) : (s.setPartialIn n).lock = s.lock := rfl
@[simp] theorem State.setPartialIn_owner (n : Nat) : (s.setPartialIn n).owner = s.owner := rfl
@[simp] theorem State.setPartialIn_ports (n : Nat) : (s.setPartialIn n).ports = s.ports := rfl
@[simp] theorem State.setPartialIn_cfg (n : Nat) : (s.setPartialIn n).cfg = s.cfg := rfl
@[simp] theorem State.setPartialIn_schedule (n : Nat) : (s.setPartialIn n).schedule = s.schedule := rfl
@[simp] theorem State.setPartialIn_moves (n : Nat) : (s.setPartialIn n).moves = s.moves := rfl
@[simp] theorem State.setPartialIn_grants (n : Nat) : (s.setPartialIn n).grants = s.grants := rfl
@[simp] theorem State.setPartialIn_draws (n : Nat) : (s.setPartialIn n).draws = s.draws := rfl
@[simp] theorem State.setPartialIn_trace (n : Nat) : (s.setPartialIn n).trace = s.trace := rfl

/-! ### `State.setPartialOut` -/

@[simp] theorem State.setPartialOut_writeFrameId (n : Nat) : (s.setPartialOut n).writeFrameId = s.writeFrameId := rfl
@[simp] theorem State.setPartialOut_readFrameId (n : Nat) : (s.setPartialOut n).readFrameId = s.readFrameId := rfl
@[simp] theorem State.setPartialOut_partialBytesIn (n : Nat) : (s.setPartialOut n).partialBytesIn = s.partialBytesIn := rfl
@[simp] theorem State.setPartialOut_partialBytesOut (n : Nat) : (s.setPartialOut n).partialBytesOut = BitVec.ofNat 32 n := rfl
@[simp] theorem State.setPartialOut_frameSizeIn (n : Nat) : (s.setPartialOut n).frameSizeIn = s.frameSizeIn := rfl
@[simp] theorem State.setPartialOut_frameSizeOut (n : Nat) : (s.setPartialOut n).frameSizeOut = s.frameSizeOut := rfl
@[simp] theorem State.setPartialOut_numFrames (n : Nat) : (s.setPartialOut n).numFrames = s.numFrames := rfl
@[simp] theorem State.setPartialOut_capacity (n : Nat) : (s.setPartialOut n).capacity = s.capacity := rfl
@[simp] theorem State.setPartialOut_fmtIn (n : Nat) : (s.setPartialOut n).fmtIn = s.fmtIn := rfl
@[simp] theorem State.setPartialOut_fmtOut (n : Nat) : (s.setPartialOut n).fmtOut = s.fmtOut := rfl
@[simp] theorem State.setPartialOut_liveStorage (n : Nat) : (s.setPartialOut n).liveStorage = s.liveStorage := rfl
@[simp] theorem State.setPartialOut_livePfi (n : Nat) : (s.setPartialOut n).livePfi = s.livePfi := rfl
@[simp] theorem State.setPartialOut_livePfo (n : Nat) : (s.setPartialOut n).livePfo = s.livePfo := rfl
@[simp] theorem State.setPartialOut_storage (n : Nat) : (s.setPartialOut n).storage = s.storage := rfl
@[simp] theorem State.setPartialOut_pfi (n : Nat) : (s.setPartialOut n).pfi = s.pfi := rfl
@[simp] theorem State.setPartialOut_pfo (n : Nat) : (s.setPartialOut n).pfo = s.pfo := rfl
@[simp] theorem State.setPartialOut_fault (n : Nat) : (s.setPartialOut n).fault = s.fault := rfl
@[simp] theorem State.setPartialOut_lock (n : Nat) : (s.setPartialOut n).lock = s.lock := rfl
@[simp] theorem State.setPartialOut_owner (n : Nat) : (s.setPartialOut n).owner = s.owner := rfl
@[simp] theorem State.setPartialOut_ports (n : Nat) : (s.setPartialOut n).ports = s.ports := rfl
@[simp] theorem State.setPartialOut_cfg (n : Nat) : (s.setPartialOut n).cfg = s.cfg := rfl
@[simp] theorem State.setPartialOut_schedule (n : Nat) : (s.setPartialOut n).schedule = s.schedule := rfl
@[simp] theorem State.setPartialOut_moves (n : Nat) : (s.setPartialOut n).moves = s.moves := rfl
@[simp] theorem State.setPartialOut_grants (n : Nat) : (s.setPartialOut n).grants = s.grants := rfl
@[simp] theorem State.setPartialOut_draws (n : Nat) : (s.setPartialOut n).draws = s.draws := rfl
@[simp] theorem State.setPartialOut_trace (n : Nat) : (s.setPartialOut n).trace = s.trace := rfl

/-! ### `State.commitInput` -/

@[simp] theorem State.commitInput_writeFrameId (d : Descriptor) : (s.commitInput d).writeFrameId = 0#32 := rfl
@[simp] theorem State.commitInput_readFrameId (d : Descriptor) : (s.commitInput d).readFrameId = 0#32 := rfl
@[simp] theorem State.commitInput_partialBytesIn (d : Descriptor) : (s.commitInput d).partialBytesIn = 0#32 := rfl
@[simp] theorem State.commitInput_partialBytesOut (d : Descriptor) : (s.commitInput d).partialBytesOut = s.partialBytesOut := rfl
@[simp] theorem State.commitInput_frameSizeIn (d : Descriptor) : (s.commitInput d).frameSizeIn = BitVec.ofNat 32 d.frameSize := rfl
@[simp] theorem State.commitInput_frameSizeOut (d : Descriptor) : (s.commitInput d).frameSizeOut = s.frameSizeOut := rfl
@[simp] theorem State.commitInput_numFrames (d : Descriptor) : (s.commitInput d).numFrames = BitVec.ofNat 32 (capacityFor s.cfg d / d.frameSize) := rfl
@[simp] theorem State.commitInput_capacity (d : Descriptor) : (s.commitInput d).capacity = BitVec.ofNat 32 (capacityFor s.cfg d) := rfl
@[simp] theorem State.commitInput_fmtIn (d : Descriptor) : (s.commitInput d).fmtIn = d := rfl
@[simp] theorem State.commitInput_fmtOut (d : Descriptor) : (s.commitInput d).fmtOut = s.fmtOut := rfl
@[simp] theorem State.commitInput_liveStorage (d : Descriptor) : (s.commitInput d).liveStorage = true := rfl
@[simp] theorem State.commitInput_livePfi (d : Descriptor) : (s.commitInput d).livePfi = true := rfl
@[simp] theorem State.commitInput_livePfo (d : Descriptor) : (s.commitInput d).livePfo = s.livePfo := rfl
@[simp] theorem State.commitInput_storage (d : Descriptor) : (s.commitInput d).storage = [] := rfl
@[simp] theorem State.commitInput_pfi (d : Descriptor) : (s.commitInput d).pfi = [] := rfl
@[simp] theorem State.commitInput_pfo (d : Descriptor) : (s.commitInput d).pfo = s.pfo := rfl
@[simp] theorem State.commitInput_fault (d : Descriptor) : (s.commitInput d).fault = s.fault := rfl
@[simp] theorem State.commitInput_lock (d : Descriptor) : (s.commitInput d).lock = s.lock := rfl
@[simp] theorem State.commitInput_owner (d : Descriptor) : (s.commitInput d).owner = s.owner := rfl
@[simp] theorem State.commitInput_ports (d : Descriptor) : (s.commitInput d).ports = s.ports := rfl
@[simp] theorem State.commitInput_cfg (d : Descriptor) : (s.commitInput d).cfg = s.cfg := rfl
@[simp] theorem State.commitInput_schedule (d : Descriptor) : (s.commitInput d).schedule = s.schedule := rfl
@[simp] theorem State.commitInput_moves (d : Descriptor) : (s.commitInput d).moves = s.moves := rfl
@[simp] theorem State.commitInput_grants (d : Descriptor) : (s.commitInput d).grants = s.grants := rfl
@[simp] theorem State.commitInput_draws (d : Descriptor) : (s.commitInput d).draws = s.draws := rfl
@[simp] theorem State.commitInput_trace (d : Descriptor) : (s.commitInput d).trace = s.trace ++ [.alloc .storage (capacityFor s.cfg d), .alloc .pfi d.frameSize] := rfl

/-! ### `State.commitOutput` -/

@[simp] theorem State.commitOutput_writeFrameId (d : Descriptor) : (s.commitOutput d).writeFrameId = 0#32 := rfl
@[simp] theorem State.commitOutput_readFrameId (d : Descriptor) : (s.commitOutput d).readFrameId = 0#32 := rfl
@[simp] theorem State.commitOutput_partialBytesIn (d : Descriptor) : (s.commitOutput d).partialBytesIn = s.partialBytesIn := rfl
@[simp] theorem State.commitOutput_partialBytesOut (d : Descriptor) : (s.commitOutput d).partialBytesOut = 0#32 := rfl
@[simp] theorem State.commitOutput_frameSizeIn (d : Descriptor) : (s.commitOutput d).frameSizeIn = s.frameSizeIn := rfl
@[simp] theorem State.commitOutput_frameSizeOut (d : Descriptor) : (s.commitOutput d).frameSizeOut = BitVec.ofNat 32 d.frameSize := rfl
@[simp] theorem State.commitOutput_numFrames (d : Descriptor) : (s.commitOutput d).numFrames = s.numFrames := rfl
@[simp] theorem State.commitOutput_capacity (d : Descriptor) : (s.commitOutput d).capacity = s.capacity := rfl
@[simp] theorem State.commitOutput_fmtIn (d : Descriptor) : (s.commitOutput d).fmtIn = s.fmtIn := rfl
@[simp] theorem State.commitOutput_fmtOut (d : Descriptor) : (s.commitOutput d).fmtOut = d := rfl
@[simp] theorem State.commitOutput_liveStorage (d : Descriptor) : (s.commitOutput d).liveStorage = s.liveStorage := rfl
@[simp] theorem State.commitOutput_livePfi (d : Descriptor) : (s.commitOutput d).livePfi = s.livePfi := rfl
@[simp] theorem State.commitOutput_livePfo (d : Descriptor) : (s.commitOutput d).livePfo = true := rfl
@[simp] theorem State.commitOutput_storage (d : Descriptor) : (s.commitOutput d).storage = s.storage := rfl
@[simp] theorem State.commitOutput_pfi (d : Descriptor) : (s.commitOutput d).pfi = s.pfi := rfl
@[simp] theorem State.commitOutput_pfo (d : Descriptor) : (s.commitOutput d).pfo = [] := rfl
@[simp] theorem State.commitOutput_fault (d : Descriptor) : (s.commitOutput d).fault = s.fault := rfl
@[simp] theorem State.commitOutput_lock (d : Descriptor) : (s.commitOutput d).lock = s.lock := rfl
@[simp] theorem State.commitOutput_owner (d : Descriptor) : (s.commitOutput d).owner = s.owner := rfl
@[simp] theorem State.commitOutput_ports (d : Descriptor) : (s.commitOutput d).ports = s.ports := rfl
@[simp] theorem State.commitOutput_cfg (d : Descriptor) : (s.commitOutput d).cfg = s.cfg := rfl
@[simp] theorem State.commitOutput_schedule (d : Descriptor) : (s.commitOutput d).schedule = s.schedule := rfl
@[simp] theorem State.commitOutput_moves (d : Descriptor) : (s.commitOutput d).moves = s.moves := rfl
@[simp] theorem State.commitOutput_grants (d : Descriptor) : (s.commitOutput d).grants = s.grants := rfl
@[simp] theorem State.commitOutput_draws (d : Descriptor) : (s.commitOutput d).draws = s.draws := rfl
@[simp] theorem State.commitOutput_trace (d : Descriptor) : (s.commitOutput d).trace = s.trace ++ ((if s.livePfo then [.free .pfo] else []) ++ [.alloc .pfo d.frameSize]) := rfl

/-! ### `State.release` -/

@[simp] theorem State.release_writeFrameId : (s.release).writeFrameId = 0#32 := rfl
@[simp] theorem State.release_readFrameId : (s.release).readFrameId = 0#32 := rfl
@[simp] theorem State.release_partialBytesIn : (s.release).partialBytesIn = 0#32 := rfl
@[simp] theorem State.release_partialBytesOut : (s.release).partialBytesOut = 0#32 := rfl
@[simp] theorem State.release_frameSizeIn : (s.release).frameSizeIn = 0#32 := rfl
@[simp] theorem State.release_frameSizeOut : (s.release).frameSizeOut = 0#32 := rfl
@[simp] theorem State.release_numFrames : (s.release).numFrames = 0#32 := rfl
@[simp] theorem State.release_capacity : (s.release).capacity = 0#32 := rfl
@[simp] theorem State.release_fmtIn : (s.release).fmtIn = Descriptor.zero := rfl
@[simp] theorem State.release_fmtOut : (s.release).fmtOut = Descriptor.zero := rfl
@[simp] theorem State.release_liveStorage : (s.release).liveStorage = false := rfl
@[simp] theorem State.release_livePfi : (s.release).livePfi = false := rfl
@[simp] theorem State.release_livePfo : (s.release).livePfo = false := rfl
@[simp] theorem State.release_storage : (s.release).storage = [] := rfl
@[simp] theorem State.release_pfi : (s.release).pfi = [] := rfl
@[simp] theorem State.release_pfo : (s.release).pfo = [] := rfl
@[simp] theorem State.release_fault : (s.release).fault = s.fault := rfl
@[simp] theorem State.release_lock : (s.release).lock = s.lock := rfl
@[simp] theorem State.release_owner : (s.release).owner = s.owner := rfl
@[simp] theorem State.release_ports : (s.release).ports = s.ports := rfl
@[simp] theorem State.release_cfg : (s.release).cfg = s.cfg := rfl
@[simp] theorem State.release_schedule : (s.release).schedule = s.schedule := rfl
@[simp] theorem State.release_moves : (s.release).moves = s.moves := rfl
@[simp] theorem State.release_grants : (s.release).grants = s.grants := rfl
@[simp] theorem State.release_draws : (s.release).draws = s.draws := rfl
@[simp] theorem State.release_trace : (s.release).trace = s.trace ++ s.frees := rfl

/-! ### `State.afterMove` -/

@[simp] theorem State.afterMove_writeFrameId : (s.afterMove).writeFrameId = s.writeFrameId := rfl
@[simp] theorem State.afterMove_readFrameId : (s.afterMove).readFrameId = s.readFrameId := rfl
@[simp] theorem State.afterMove_partialBytesIn : (s.afterMove).partialBytesIn = s.partialBytesIn := rfl
@[simp] theorem State.afterMove_partialBytesOut : (s.afterMove).partialBytesOut = s.partialBytesOut := rfl
@[simp] theorem State.afterMove_frameSizeIn : (s.afterMove).frameSizeIn = s.frameSizeIn := rfl
@[simp] theorem State.afterMove_frameSizeOut : (s.afterMove).frameSizeOut = s.frameSizeOut := rfl
@[simp] theorem State.afterMove_numFrames : (s.afterMove).numFrames = s.numFrames := rfl
@[simp] theorem State.afterMove_capacity : (s.afterMove).capacity = s.capacity := rfl
@[simp] theorem State.afterMove_fmtIn : (s.afterMove).fmtIn = s.fmtIn := rfl
@[simp] theorem State.afterMove_fmtOut : (s.afterMove).fmtOut = s.fmtOut := rfl
@[simp] theorem State.afterMove_liveStorage : (s.afterMove).liveStorage = s.liveStorage := rfl
@[simp] theorem State.afterMove_livePfi : (s.afterMove).livePfi = s.livePfi := rfl
@[simp] theorem State.afterMove_livePfo : (s.afterMove).livePfo = s.livePfo := rfl
@[simp] theorem State.afterMove_storage : (s.afterMove).storage = s.storage := rfl
@[simp] theorem State.afterMove_pfi : (s.afterMove).pfi = s.pfi := rfl
@[simp] theorem State.afterMove_pfo : (s.afterMove).pfo = s.pfo := rfl
@[simp] theorem State.afterMove_fault : (s.afterMove).fault = s.fault := rfl
@[simp] theorem State.afterMove_lock : (s.afterMove).lock = s.lock := rfl
@[simp] theorem State.afterMove_owner : (s.afterMove).owner = s.owner := rfl
@[simp] theorem State.afterMove_ports : (s.afterMove).ports = s.ports := rfl
@[simp] theorem State.afterMove_cfg : (s.afterMove).cfg = s.cfg := rfl
@[simp] theorem State.afterMove_schedule : (s.afterMove).schedule = s.schedule.tail := rfl
@[simp] theorem State.afterMove_moves : (s.afterMove).moves = s.moves + 1 := rfl
@[simp] theorem State.afterMove_grants : (s.afterMove).grants = s.grants := rfl
@[simp] theorem State.afterMove_draws : (s.afterMove).draws = s.draws := rfl
@[simp] theorem State.afterMove_trace : (s.afterMove).trace = s.trace := rfl

/-! ### `State.emit` -/

@[simp] theorem State.emit_writeFrameId (o : Output) : (s.emit o).writeFrameId = s.writeFrameId := rfl
@[simp] theorem State.emit_readFrameId (o : Output) : (s.emit o).readFrameId = s.readFrameId := rfl
@[simp] theorem State.emit_partialBytesIn (o : Output) : (s.emit o).partialBytesIn = s.partialBytesIn := rfl
@[simp] theorem State.emit_partialBytesOut (o : Output) : (s.emit o).partialBytesOut = s.partialBytesOut := rfl
@[simp] theorem State.emit_frameSizeIn (o : Output) : (s.emit o).frameSizeIn = s.frameSizeIn := rfl
@[simp] theorem State.emit_frameSizeOut (o : Output) : (s.emit o).frameSizeOut = s.frameSizeOut := rfl
@[simp] theorem State.emit_numFrames (o : Output) : (s.emit o).numFrames = s.numFrames := rfl
@[simp] theorem State.emit_capacity (o : Output) : (s.emit o).capacity = s.capacity := rfl
@[simp] theorem State.emit_fmtIn (o : Output) : (s.emit o).fmtIn = s.fmtIn := rfl
@[simp] theorem State.emit_fmtOut (o : Output) : (s.emit o).fmtOut = s.fmtOut := rfl
@[simp] theorem State.emit_liveStorage (o : Output) : (s.emit o).liveStorage = s.liveStorage := rfl
@[simp] theorem State.emit_livePfi (o : Output) : (s.emit o).livePfi = s.livePfi := rfl
@[simp] theorem State.emit_livePfo (o : Output) : (s.emit o).livePfo = s.livePfo := rfl
@[simp] theorem State.emit_storage (o : Output) : (s.emit o).storage = s.storage := rfl
@[simp] theorem State.emit_pfi (o : Output) : (s.emit o).pfi = s.pfi := rfl
@[simp] theorem State.emit_pfo (o : Output) : (s.emit o).pfo = s.pfo := rfl
@[simp] theorem State.emit_fault (o : Output) : (s.emit o).fault = s.fault := rfl
@[simp] theorem State.emit_lock (o : Output) : (s.emit o).lock = s.lock := rfl
@[simp] theorem State.emit_owner (o : Output) : (s.emit o).owner = s.owner := rfl
@[simp] theorem State.emit_ports (o : Output) : (s.emit o).ports = s.ports := rfl
@[simp] theorem State.emit_cfg (o : Output) : (s.emit o).cfg = s.cfg := rfl
@[simp] theorem State.emit_schedule (o : Output) : (s.emit o).schedule = s.schedule := rfl
@[simp] theorem State.emit_moves (o : Output) : (s.emit o).moves = s.moves := rfl
@[simp] theorem State.emit_grants (o : Output) : (s.emit o).grants = s.grants := rfl
@[simp] theorem State.emit_draws (o : Output) : (s.emit o).draws = s.draws := rfl
@[simp] theorem State.emit_trace (o : Output) : (s.emit o).trace = s.trace ++ [o] := rfl

/-! ### `State.acquire` -/

@[simp] theorem State.acquire_writeFrameId (p : Nat) (req : Request) : (s.acquire p req).writeFrameId = s.writeFrameId := rfl
@[simp] theorem State.acquire_readFrameId (p : Nat) (req : Request) : (s.acquire p req).readFrameId = s.readFrameId := rfl
@[simp] theorem State.acquire_partialBytesIn (p : Nat) (req : Request) : (s.acquire p req).partialBytesIn = s.partialBytesIn := rfl
@[simp] theorem State.acquire_partialBytesOut (p : Nat) (req : Request) : (s.acquire p req).partialBytesOut = s.partialBytesOut := rfl
@[simp] theorem State.acquire_frameSizeIn (p : Nat) (req : Request) : (s.acquire p req).frameSizeIn = s.frameSizeIn := rfl
@[simp] theorem State.acquire_frameSizeOut (p : Nat) (req : Request) : (s.acquire p req).frameSizeOut = s.frameSizeOut := rfl
@[simp] theorem State.acquire_numFrames (p : Nat) (req : Request) : (s.acquire p req).numFrames = s.numFrames := rfl
@[simp] theorem State.acquire_capacity (p : Nat) (req : Request) : (s.acquire p req).capacity = s.capacity := rfl
@[simp] theorem State.acquire_fmtIn (p : Nat) (req : Request) : (s.acquire p req).fmtIn = s.fmtIn := rfl
@[simp] theorem State.acquire_fmtOut (p : Nat) (req : Request) : (s.acquire p req).fmtOut = s.fmtOut := rfl
@[simp] theorem State.acquire_liveStorage (p : Nat) (req : Request) : (s.acquire p req).liveStorage = s.liveStorage := rfl
@[simp] theorem State.acquire_livePfi (p : Nat) (req : Request) : (s.acquire p req).livePfi = s.livePfi := rfl
@[simp] theorem State.acquire_livePfo (p : Nat) (req : Request) : (s.acquire p req).livePfo = s.livePfo := rfl
@[simp] theorem State.acquire_storage (p : Nat) (req : Request) : (s.acquire p req).storage = s.storage := rfl
@[simp] theorem State.acquire_pfi (p : Nat) (req : Request) : (s.acquire p req).pfi = s.pfi := rfl
@[simp] theorem State.acquire_pfo (p : Nat) (req : Request) : (s.acquire p req).pfo = s.pfo := rfl
@[simp] theorem State.acquire_fault (p : Nat) (req : Request) : (s.acquire p req).fault = s.fault := rfl
@[simp] theorem State.acquire_lock (p : Nat) (req : Request) : (s.acquire p req).lock = true := rfl
@[simp] theorem State.acquire_owner (p : Nat) (req : Request) : (s.acquire p req).owner = p := rfl
@[simp] theorem State.acquire_ports (p : Nat) (req : Request) : (s.acquire p req).ports = s.ports.set p (.holding req) := rfl
@[simp] theorem State.acquire_cfg (p : Nat) (req : Request) : (s.acquire p req).cfg = s.cfg := rfl
@[simp] theorem State.acquire_schedule (p : Nat) (req : Request) : (s.acquire p req).schedule = s.schedule := rfl
@[simp] theorem State.acquire_moves (p : Nat) (req : Request) : (s.acquire p req).moves = s.moves := rfl
@[simp] theorem State.acquire_grants (p : Nat) (req : Request) : (s.acquire p req).grants = s.grants := rfl
@[simp] theorem State.acquire_draws (p : Nat) (req : Request) : (s.acquire p req).draws = s.draws := rfl
@[simp] theorem State.acquire_trace (p : Nat) (req : Request) : (s.acquire p req).trace = s.trace := rfl

/-! ### `State.holdRequest` -/

@[simp] theorem State.holdRequest_writeFrameId (req : Request) : (s.holdRequest req).writeFrameId = s.writeFrameId := rfl
@[simp] theorem State.holdRequest_readFrameId (req : Request) : (s.holdRequest req).readFrameId = s.readFrameId := rfl
@[simp] theorem State.holdRequest_partialBytesIn (req : Request) : (s.holdRequest req).partialBytesIn = s.partialBytesIn := rfl
@[simp] theorem State.holdRequest_partialBytesOut (req : Request) : (s.holdRequest req).partialBytesOut = s.partialBytesOut := rfl
@[simp] theorem State.holdRequest_frameSizeIn (req : Request) : (s.holdRequest req).frameSizeIn = s.frameSizeIn := rfl
@[simp] theorem State.holdRequest_frameSizeOut (req : Request) : (s.holdRequest req).frameSizeOut = s.frameSizeOut := rfl
@[simp] theorem State.holdRequest_numFrames (req : Request) : (s.holdRequest req).numFrames = s.numFrames := rfl
@[simp] theorem State.holdRequest_capacity (req : Request) : (s.holdRequest req).capacity = s.capacity := rfl
@[simp] theorem State.holdRequest_fmtIn (req : Request) : (s.holdRequest req).fmtIn = s.fmtIn := rfl
@[simp] theorem State.holdRequest_fmtOut (req : Request) : (s.holdRequest req).fmtOut = s.fmtOut := rfl
@[simp] theorem State.holdRequest_liveStorage (req : Request) : (s.holdRequest req).liveStorage = s.liveStorage := rfl
@[simp] theorem State.holdRequest_livePfi (req : Request) : (s.holdRequest req).livePfi = s.livePfi := rfl
@[simp] theorem State.holdRequest_livePfo (req : Request) : (s.holdRequest req).livePfo = s.livePfo := rfl
@[simp] theorem State.holdRequest_storage (req : Request) : (s.holdRequest req).storage = s.storage := rfl
@[simp] theorem State.holdRequest_pfi (req : Request) : (s.holdRequest req).pfi = s.pfi := rfl
@[simp] theorem State.holdRequest_pfo (req : Request) : (s.holdRequest req).pfo = s.pfo := rfl
@[simp] theorem State.holdRequest_fault (req : Request) : (s.holdRequest req).fault = s.fault := rfl
@[simp] theorem State.holdRequest_lock (req : Request) : (s.holdRequest req).lock = true := rfl
@[simp] theorem State.holdRequest_owner (req : Request) : (s.holdRequest req).owner = 0 := rfl
@[simp] theorem State.holdRequest_ports (req : Request) : (s.holdRequest req).ports = .holding req :: s.ports.tail := rfl
@[simp] theorem State.holdRequest_cfg (req : Request) : (s.holdRequest req).cfg = s.cfg := rfl
@[simp] theorem State.holdRequest_schedule (req : Request) : (s.holdRequest req).schedule = .runBody :: s.schedule := rfl
@[simp] theorem State.holdRequest_moves (req : Request) : (s.holdRequest req).moves = s.moves := rfl
@[simp] theorem State.holdRequest_grants (req : Request) : (s.holdRequest req).grants = s.grants := rfl
@[simp] theorem State.holdRequest_draws (req : Request) : (s.holdRequest req).draws = s.draws := rfl
@[simp] theorem State.holdRequest_trace (req : Request) : (s.holdRequest req).trace = s.trace := rfl

/-! ### `State.hardReset` -/

@[simp] theorem State.hardReset_writeFrameId : (s.hardReset).writeFrameId = 0#32 := rfl
@[simp] theorem State.hardReset_readFrameId : (s.hardReset).readFrameId = 0#32 := rfl
@[simp] theorem State.hardReset_partialBytesIn : (s.hardReset).partialBytesIn = 0#32 := rfl
@[simp] theorem State.hardReset_partialBytesOut : (s.hardReset).partialBytesOut = 0#32 := rfl
@[simp] theorem State.hardReset_frameSizeIn : (s.hardReset).frameSizeIn = 0#32 := rfl
@[simp] theorem State.hardReset_frameSizeOut : (s.hardReset).frameSizeOut = 0#32 := rfl
@[simp] theorem State.hardReset_numFrames : (s.hardReset).numFrames = 0#32 := rfl
@[simp] theorem State.hardReset_capacity : (s.hardReset).capacity = 0#32 := rfl
@[simp] theorem State.hardReset_fmtIn : (s.hardReset).fmtIn = Descriptor.zero := rfl
@[simp] theorem State.hardReset_fmtOut : (s.hardReset).fmtOut = Descriptor.zero := rfl
@[simp] theorem State.hardReset_liveStorage : (s.hardReset).liveStorage = false := rfl
@[simp] theorem State.hardReset_livePfi : (s.hardReset).livePfi = false := rfl
@[simp] theorem State.hardReset_livePfo : (s.hardReset).livePfo = false := rfl
@[simp] theorem State.hardReset_storage : (s.hardReset).storage = [] := rfl
@[simp] theorem State.hardReset_pfi : (s.hardReset).pfi = [] := rfl
@[simp] theorem State.hardReset_pfo : (s.hardReset).pfo = [] := rfl
@[simp] theorem State.hardReset_fault : (s.hardReset).fault = 0#8 := rfl
@[simp] theorem State.hardReset_lock : (s.hardReset).lock = false := rfl
@[simp] theorem State.hardReset_owner : (s.hardReset).owner = 0 := rfl
@[simp] theorem State.hardReset_ports : (s.hardReset).ports = List.replicate s.cfg.nports .idle := rfl
@[simp] theorem State.hardReset_cfg : (s.hardReset).cfg = s.cfg := rfl
@[simp] theorem State.hardReset_schedule : (s.hardReset).schedule = s.schedule := rfl
@[simp] theorem State.hardReset_moves : (s.hardReset).moves = s.moves := rfl
@[simp] theorem State.hardReset_grants : (s.hardReset).grants = s.grants := rfl
@[simp] theorem State.hardReset_draws : (s.hardReset).draws = s.draws := rfl
@[simp] theorem State.hardReset_trace : (s.hardReset).trace = s.trace ++ s.frees := rfl

/-! ### `State.setRegion` -/

@[simp] theorem State.setRegion_writeFrameId (sp : Space) (m : Memory) : (s.setRegion sp m).writeFrameId = s.writeFrameId := by cases sp <;> rfl
@[simp] theorem State.setRegion_readFrameId (sp : Space) (m : Memory) : (s.setRegion sp m).readFrameId = s.readFrameId := by cases sp <;> rfl
@[simp] theorem State.setRegion_partialBytesIn (sp : Space) (m : Memory) : (s.setRegion sp m).partialBytesIn = s.partialBytesIn := by cases sp <;> rfl
@[simp] theorem State.setRegion_partialBytesOut (sp : Space) (m : Memory) : (s.setRegion sp m).partialBytesOut = s.partialBytesOut := by cases sp <;> rfl
@[simp] theorem State.setRegion_frameSizeIn (sp : Space) (m : Memory) : (s.setRegion sp m).frameSizeIn = s.frameSizeIn := by cases sp <;> rfl
@[simp] theorem State.setRegion_frameSizeOut (sp : Space) (m : Memory) : (s.setRegion sp m).frameSizeOut = s.frameSizeOut := by cases sp <;> rfl
@[simp] theorem State.setRegion_numFrames (sp : Space) (m : Memory) : (s.setRegion sp m).numFrames = s.numFrames := by cases sp <;> rfl
@[simp] theorem State.setRegion_capacity (sp : Space) (m : Memory) : (s.setRegion sp m).capacity = s.capacity := by cases sp <;> rfl
@[simp] theorem State.setRegion_fmtIn (sp : Space) (m : Memory) : (s.setRegion sp m).fmtIn = s.fmtIn := by cases sp <;> rfl
@[simp] theorem State.setRegion_fmtOut (sp : Space) (m : Memory) : (s.setRegion sp m).fmtOut = s.fmtOut := by cases sp <;> rfl
@[simp] theorem State.setRegion_liveStorage (sp : Space) (m : Memory) : (s.setRegion sp m).liveStorage = s.liveStorage := by cases sp <;> rfl
@[simp] theorem State.setRegion_livePfi (sp : Space) (m : Memory) : (s.setRegion sp m).livePfi = s.livePfi := by cases sp <;> rfl
@[simp] theorem State.setRegion_livePfo (sp : Space) (m : Memory) : (s.setRegion sp m).livePfo = s.livePfo := by cases sp <;> rfl
@[simp] theorem State.setRegion_fault (sp : Space) (m : Memory) : (s.setRegion sp m).fault = s.fault := by cases sp <;> rfl
@[simp] theorem State.setRegion_lock (sp : Space) (m : Memory) : (s.setRegion sp m).lock = s.lock := by cases sp <;> rfl
@[simp] theorem State.setRegion_owner (sp : Space) (m : Memory) : (s.setRegion sp m).owner = s.owner := by cases sp <;> rfl
@[simp] theorem State.setRegion_ports (sp : Space) (m : Memory) : (s.setRegion sp m).ports = s.ports := by cases sp <;> rfl
@[simp] theorem State.setRegion_cfg (sp : Space) (m : Memory) : (s.setRegion sp m).cfg = s.cfg := by cases sp <;> rfl
@[simp] theorem State.setRegion_schedule (sp : Space) (m : Memory) : (s.setRegion sp m).schedule = s.schedule := by cases sp <;> rfl
@[simp] theorem State.setRegion_moves (sp : Space) (m : Memory) : (s.setRegion sp m).moves = s.moves := by cases sp <;> rfl
@[simp] theorem State.setRegion_grants (sp : Space) (m : Memory) : (s.setRegion sp m).grants = s.grants := by cases sp <;> rfl
@[simp] theorem State.setRegion_draws (sp : Space) (m : Memory) : (s.setRegion sp m).draws = s.draws := by cases sp <;> rfl
@[simp] theorem State.setRegion_trace (sp : Space) (m : Memory) : (s.setRegion sp m).trace = s.trace := by cases sp <;> rfl

@[simp] theorem State.region_storage : s.region .storage = s.storage := rfl
@[simp] theorem State.region_pfi : s.region .pfi = s.pfi := rfl
@[simp] theorem State.region_pfo : s.region .pfo = s.pfo := rfl
@[simp] theorem State.setRegion_region (sp : Space) (m : Memory) : (s.setRegion sp m).region sp = m := by
  cases sp <;> rfl
@[simp] theorem State.setRegion_storage_storage (m : Memory) : (s.setRegion .storage m).storage = m := rfl
@[simp] theorem State.setRegion_storage_pfi (m : Memory) : (s.setRegion .storage m).pfi = s.pfi := rfl
@[simp] theorem State.setRegion_storage_pfo (m : Memory) : (s.setRegion .storage m).pfo = s.pfo := rfl
@[simp] theorem State.setRegion_pfi_storage (m : Memory) : (s.setRegion .pfi m).storage = s.storage := rfl
@[simp] theorem State.setRegion_pfi_pfi (m : Memory) : (s.setRegion .pfi m).pfi = m := rfl
@[simp] theorem State.setRegion_pfi_pfo (m : Memory) : (s.setRegion .pfi m).pfo = s.pfo := rfl
@[simp] theorem State.setRegion_pfo_storage (m : Memory) : (s.setRegion .pfo m).storage = s.storage := rfl
@[simp] theorem State.setRegion_pfo_pfi (m : Memory) : (s.setRegion .pfo m).pfi = s.pfi := rfl
@[simp] theorem State.setRegion_pfo_pfo (m : Memory) : (s.setRegion .pfo m).pfo = m := rfl
theorem State.setRegion_region_of_ne {sp sp' : Space} (m : Memory) (h : sp' ≠ sp) :
    (s.setRegion sp m).region sp' = s.region sp' := by
  cases sp <;> cases sp' <;> first | rfl | exact absurd rfl h
@[simp] theorem State.setRegion_regionSize (sp sp' : Space) (m : Memory) :
    (s.setRegion sp m).regionSize sp' = s.regionSize sp' := by
  cases sp <;> cases sp' <;> rfl
@[simp] theorem State.setPartialIn_regionSize (n : Nat) (sp : Space) :
    (s.setPartialIn n).regionSize sp = s.regionSize sp := by cases sp <;> rfl
@[simp] theorem State.setPartialOut_regionSize (n : Nat) (sp : Space) :
    (s.setPartialOut n).regionSize sp = s.regionSize sp := by cases sp <;> rfl
@[simp] theorem State.advanceWrite_regionSize (sp : Space) : s.advanceWrite.regionSize sp = s.regionSize sp := by
  cases sp <;> rfl
@[simp] theorem State.advanceRead_regionSize (sp : Space) : s.advanceRead.regionSize sp = s.regionSize sp := by
  cases sp <;> rfl

end Sys2Proof.Machine
end

