-- ==== Sys2Proof/Laws/Ops.lean ====
section
/-! SUPPORT. What each shared operation can do, said once. -/

namespace Sys2Proof.Machine

/-! ### Sequencing -/

/-- A sequence of two operations answers when both do. -/
theorem except_bind_ok {α β : Type} {x : Except Fault α} {f : α → Except Fault β} {b : β} :
    (x >>= f) = .ok b ↔ ∃ a, x = .ok a ∧ f a = .ok b := by
  cases x with
  | error e => simp [bind, Except.bind]
  | ok a => simp [bind, Except.bind]

@[simp] theorem except_ok_bind {α β : Type} (a : α) (f : α → Except Fault β) :
    ((Except.ok a : Except Fault α) >>= f) = f a := rfl

@[simp] theorem except_error_bind {α β : Type} (e : Fault) (f : α → Except Fault β) :
    ((Except.error e : Except Fault α) >>= f) = .error e := rfl

theorem except_map_ok {α β : Type} {x : Except Fault α} {f : α → β} {b : β} :
    x.map f = .ok b ↔ ∃ a, x = .ok a ∧ f a = b := by
  cases x with
  | error e => simp [Except.map]
  | ok a => simp [Except.map]

/-! ### Memory primitives (R13) -/

theorem memRead_ok {s : State} {sp : Space} {a n : Nat} {bs : List Byte} :
    memRead s sp a n = .ok bs ↔ a + n ≤ s.regionSize sp ∧ bs = Memory.readBytes (s.region sp) a n := by
  rw [memRead]
  split_ifs with h
  · simp [h, eq_comm]
  · simp [h]

theorem memWrite_ok {s t : State} {sp : Space} {a : Nat} {bs : List Byte} :
    memWrite s sp a bs = .ok t ↔
      a + bs.length ≤ s.regionSize sp ∧ t = s.setRegion sp (Memory.writeBytes (s.region sp) a bs) := by
  rw [memWrite]
  split_ifs with h
  · simp [h, eq_comm]
  · simp [h]

/-! ### The ends of a command (R205) -/

@[simp] theorem succeed_eq (out : List Byte) (s : State) :
    succeed out s = .next (s.respond (okResponse s.fault out)) := rfl

@[simp] theorem raiseFail_eq (c : Cause) (s : State) :
    raiseFail c s = .next (s.respond (failResponse c s.fault)) := rfl

@[simp] theorem raiseFault_eq (c : FaultCode) (s : State) :
    raiseFault c s = .next ((s.recordFault c).respond (failResponse .fault (setFaultBit s.fault c))) := rfl

theorem finish_next {x : Except Fault (State × List Byte)} {t : State} :
    finish x = .next t ↔ ∃ y, x = .ok y ∧ t = y.1.respond (okResponse y.1.fault y.2) := by
  cases x with
  | error e => simp [finish]
  | ok y => simp [finish, eq_comm]

theorem finish_ok {y : State × List Byte} : finish (.ok y) = .next (y.1.respond (okResponse y.1.fault y.2)) := rfl

theorem finish_not_refused {x : Except Fault (State × List Byte)} {r : Refusal} : finish x ≠ .refused r := by
  cases x <;> simp [finish]

/-! ### Cursors (R152, R153) -/

theorem commitFrame_ok {s t : State} {f : List Byte} :
    commitFrame f s = .ok t ↔
      s.numFrames ≠ 0#32 ∧ s.slotAddr s.writeFrameId + f.length ≤ s.regionSize .storage ∧
        t = (s.setRegion .storage
          (Memory.writeBytes s.storage (s.slotAddr s.writeFrameId) f)).advanceWrite := by
  rw [commitFrame]
  split_ifs with h
  · simp [h]
  · simp only [except_map_ok, memWrite_ok, State.region_storage]
    constructor
    · rintro ⟨a, ⟨h1, rfl⟩, rfl⟩
      exact ⟨h, h1, rfl⟩
    · rintro ⟨_, h1, rfl⟩
      exact ⟨_, ⟨h1, rfl⟩, rfl⟩

theorem nextSlot_toNat {s : State} (i : Word) (h : s.numFrames ≠ 0#32) :
    (s.nextSlot i).toNat = (i.toNat + 1) % s.numFrames.toNat := by
  have hpos : 0 < s.numFrames.toNat := by
    rcases Nat.eq_zero_or_pos s.numFrames.toNat with h0 | h0
    · exact absurd (BitVec.eq_of_toNat_eq h0) h
    · exact h0
  have := Nat.mod_lt (i.toNat + 1) hpos
  have := s.numFrames.isLt
  rw [State.nextSlot, BitVec.toNat_ofNat, Nat.mod_eq_of_lt (by omega)]

/-! ### The write path (R151, R154, R155) -/

theorem completePartial_ok {b : List Byte} {s : State} {y : State × List Byte} (h : completePartial b s = .ok y) :
    (s.partialBytesIn = 0#32 ∧ y = (s, b)) ∨
    (s.partialBytesIn ≠ 0#32 ∧ s.partialBytesIn.toNat ≤ s.frameSizeIn.toNat ∧
      ∃ s1, memWrite s .pfi (s.frameSizeIn.toNat - s.partialBytesIn.toNat)
          (b.take (min b.length s.partialBytesIn.toNat)) = .ok s1 ∧
        ((b.length < s.partialBytesIn.toNat ∧
            y = (s1.setPartialIn (s.partialBytesIn.toNat - b.length), b.drop b.length)) ∨
          (s.partialBytesIn.toNat ≤ b.length ∧
            ∃ f s3 s4, memRead (s1.setPartialIn 0) .pfi 0 s.frameSizeIn.toNat = .ok f ∧
              commitFrame f (s1.setPartialIn 0) = .ok s3 ∧
              memWrite s3 .pfi 0 (zeros s.frameSizeIn.toNat) = .ok s4 ∧
              y = (s4, b.drop s.partialBytesIn.toNat)))) := by
  rw [completePartial] at h
  split_ifs at h with h0 h1
  · exact .inl ⟨h0, (Except.ok.inj h).symm⟩
  · refine .inr ⟨h0, by omega, ?_⟩
    simp only [except_bind_ok] at h
    obtain ⟨s1, hs1, h⟩ := h
    refine ⟨s1, hs1, ?_⟩
    split_ifs at h with hk
    · right
      simp only [except_bind_ok, hk, Nat.sub_self] at h
      obtain ⟨f, hf, s3, hs3, s4, hs4, h⟩ := h
      exact ⟨by omega, f, s3, s4, hf, hs3, hs4, (Except.ok.inj h).symm⟩
    · left
      have hlt : b.length < s.partialBytesIn.toNat := by omega
      rw [Nat.min_eq_left hlt.le] at h
      exact ⟨hlt, (Except.ok.inj h).symm⟩

theorem commitWhole_zero_ok {b : List Byte} {s : State} : commitWhole 0 b s = .ok (s, b) := rfl

theorem commitWhole_succ_ok {n : Nat} {b : List Byte} {s : State} {y : State × List Byte} :
    commitWhole (n + 1) b s = .ok y ↔
      ∃ s1, commitFrame (b.take s.frameSizeIn.toNat) s = .ok s1 ∧
        commitWhole n (b.drop s.frameSizeIn.toNat) s1 = .ok y := by
  rw [commitWhole, except_bind_ok]

theorem commitFrames_ok {b : List Byte} {s : State} {y : State × List Byte} :
    commitFrames b s = .ok y ↔
      s.frameSizeIn ≠ 0#32 ∧ commitWhole (b.length / s.frameSizeIn.toNat) b s = .ok y := by
  rw [commitFrames]
  split_ifs with h <;> simp [h]

theorem keepTail_ok {b : List Byte} {s t : State} :
    keepTail b s = .ok t ↔
      (b = [] ∧ t = s) ∨
      (b ≠ [] ∧ ∃ s1, memWrite s .pfi 0 b = .ok s1 ∧ t = s1.setPartialIn (s.frameSizeIn.toNat - b.length)) := by
  rw [keepTail]
  split_ifs with h
  · have := List.length_eq_zero_iff.1 h
    simp [this, eq_comm]
  · have hne : b ≠ [] := fun h' => h (by simp [h'])
    simp only [hne, false_and, false_or, except_bind_ok, ne_eq, not_false_eq_true, true_and, Except.ok.injEq]
    exact exists_congr fun s1 => and_congr_right fun _ => eq_comm

theorem writeBody_ok {b : List Byte} {s t : State} :
    writeBody b s = .ok t ↔
      ∃ x y, completePartial b s = .ok x ∧ commitFrames x.2 x.1 = .ok y ∧ keepTail y.2 y.1 = .ok t := by
  simp only [writeBody, except_bind_ok]
  constructor
  · rintro ⟨x, hx, y, hy, ht⟩
    exact ⟨x, y, hx, hy, ht⟩
  · rintro ⟨x, y, hx, hy, ht⟩
    exact ⟨x, hx, y, hy, ht⟩

/-- Every next state of `WRITE` (R150). -/
theorem execWrite_next {len : Word} {bytes : Option (List Byte)} {s t : State}
    (h : execWrite len bytes s = .next t) :
    (∃ c, t = s.respond (failResponse c s.fault)) ∨
    (s.liveStorage = true ∧ len ≠ 0#32 ∧ ∃ b u, bytes = some b ∧ writeBody b s = .ok u ∧
      t = u.respond (okResponse u.fault [])) := by
  unfold execWrite at h
  split_ifs at h with h1 h2
  · exact .inl ⟨_, (Host.Outcome.next.inj h).symm⟩
  · exact .inl ⟨_, (Host.Outcome.next.inj h).symm⟩
  · cases bytes with
    | none => exact .inl ⟨_, (Host.Outcome.next.inj h).symm⟩
    | some b =>
      refine .inr ⟨by simpa using h1, h2, b, ?_⟩
      simp only [finish_next, except_map_ok] at h
      obtain ⟨_, ⟨u, hu, rfl⟩, ht⟩ := h
      exact ⟨u, rfl, hu, ht⟩

/-! ### The read path (R173, R180 to R182) -/

theorem deliverPending_ok {n : Nat} {s : State} {y : State × List Byte} (h : deliverPending n s = .ok y) :
    (s.partialBytesOut = 0#32 ∧ y = (s, [])) ∨
    (s.partialBytesOut ≠ 0#32 ∧ s.partialBytesOut.toNat ≤ s.frameSizeOut.toNat ∧
      ∃ out, memRead s .pfo (s.frameSizeOut.toNat - s.partialBytesOut.toNat) (min n s.partialBytesOut.toNat) = .ok out ∧
        ((n < s.partialBytesOut.toNat ∧ y = (s.setPartialOut (s.partialBytesOut.toNat - n), out)) ∨
          (s.partialBytesOut.toNat ≤ n ∧
            ∃ s2, memWrite (s.setPartialOut 0) .pfo 0 (zeros s.frameSizeOut.toNat) = .ok s2 ∧ y = (s2, out)))) := by
  rw [deliverPending] at h
  split_ifs at h with h0 h1
  · exact .inl ⟨h0, (Except.ok.inj h).symm⟩
  · refine .inr ⟨h0, by omega, ?_⟩
    simp only [except_bind_ok] at h
    obtain ⟨out, hout, h⟩ := h
    refine ⟨out, hout, ?_⟩
    split_ifs at h with hk
    · right
      simp only [except_bind_ok, hk, Nat.sub_self] at h
      obtain ⟨s2, hs2, h⟩ := h
      exact ⟨by omega, s2, hs2, (Except.ok.inj h).symm⟩
    · left
      have hlt : n < s.partialBytesOut.toNat := by omega
      rw [Nat.min_eq_left hlt.le] at h
      exact ⟨hlt, (Except.ok.inj h).symm⟩

theorem takeFrame_ok {s : State} {y : State × List Byte} :
    takeFrame s = .ok y ↔
      s.numFrames ≠ 0#32 ∧ s.slotAddr s.readFrameId + s.frameSizeIn.toNat ≤ s.regionSize .storage ∧
        y = (s.advanceRead, convertFrame s.fmtIn s.fmtOut
          (Memory.readBytes s.storage (s.slotAddr s.readFrameId) s.frameSizeIn.toNat)) := by
  rw [takeFrame]
  split_ifs with h
  · simp [h]
  · simp only [except_bind_ok, memRead_ok, State.region_storage, ne_eq, h, not_false_eq_true, true_and]
    constructor
    · rintro ⟨_, ⟨h1, rfl⟩, h2⟩
      exact ⟨h1, (Except.ok.inj h2).symm⟩
    · rintro ⟨h1, rfl⟩
      exact ⟨_, ⟨h1, rfl⟩, rfl⟩

theorem takeWhole_zero {s : State} {out : List Byte} {rem : Nat} : takeWhole 0 s out rem = .ok ⟨s, out, rem, false⟩ :=
  rfl

theorem takeWhole_succ_ok {n : Nat} {s : State} {out : List Byte} {rem : Nat} {p : ReadProgress} :
    takeWhole (n + 1) s out rem = .ok p ↔
      ∃ x, takeFrame s = .ok x ∧
        ((x.1.readFrameId = x.1.writeFrameId ∧ p = ⟨x.1, out ++ x.2, rem - s.frameSizeOut.toNat, true⟩) ∨
          (x.1.readFrameId ≠ x.1.writeFrameId ∧
            takeWhole n x.1 (out ++ x.2) (rem - s.frameSizeOut.toNat) = .ok p)) := by
  rw [takeWhole, except_bind_ok]
  refine exists_congr fun x => and_congr_right fun _ => ?_
  split_ifs with h <;> simp [h, eq_comm]

theorem silentTail_ok {p : ReadProgress} {y : State × List Byte} :
    silentTail p = .ok y ↔
      (p.rem % p.state.frameSizeOut.toNat = 0 ∧ y = (p.state, p.out ++ zeros p.rem)) ∨
      (p.rem % p.state.frameSizeOut.toNat ≠ 0 ∧
        ∃ s1, memWrite p.state .pfo 0 (zeros p.state.frameSizeOut.toNat) = .ok s1 ∧
          y = (s1.setPartialOut (p.state.frameSizeOut.toNat - p.rem % p.state.frameSizeOut.toNat),
            p.out ++ zeros p.rem)) := by
  rw [silentTail]
  split_ifs with h
  · simp [h, eq_comm]
  · simp only [h, false_and, false_or, except_bind_ok, ne_eq, not_false_eq_true, true_and, Except.ok.injEq]
    exact exists_congr fun s1 => and_congr_right fun _ => eq_comm

theorem fractionalFrame_ok {p : ReadProgress} {y : State × List Byte} :
    fractionalFrame p = .ok y ↔
      (p.rem = 0 ∧ y = (p.state, p.out)) ∨
      (p.rem ≠ 0 ∧ ∃ x s1 head, takeFrame p.state = .ok x ∧ memWrite x.1 .pfo 0 x.2 = .ok s1 ∧
        memRead s1 .pfo 0 p.rem = .ok head ∧
        y = (s1.setPartialOut (p.state.frameSizeOut.toNat - p.rem), p.out ++ head)) := by
  rw [fractionalFrame]
  split_ifs with h
  · simp [h, eq_comm]
  · simp only [except_bind_ok, h, false_and, false_or, ne_eq, not_false_eq_true, true_and]
    constructor
    · rintro ⟨x, hx, s1, hs1, head, hh, hy⟩
      exact ⟨x, s1, head, hx, hs1, hh, (Except.ok.inj hy).symm⟩
    · rintro ⟨x, s1, head, hx, hs1, hh, rfl⟩
      exact ⟨x, hx, s1, hs1, head, hh, rfl⟩

theorem deliverFrames_ok {rem : Nat} {out : List Byte} {s : State} {y : State × List Byte} :
    deliverFrames rem out s = .ok y ↔
      s.frameSizeOut ≠ 0#32 ∧ ∃ p, takeWhole (rem / s.frameSizeOut.toNat) s out rem = .ok p ∧
        ((p.drained = true ∧ silentTail p = .ok y) ∨ (p.drained = false ∧ fractionalFrame p = .ok y)) := by
  rw [deliverFrames]
  split_ifs with h
  · simp [h]
  · simp only [except_bind_ok, ne_eq, h, not_false_eq_true, true_and]
    refine exists_congr fun p => and_congr_right fun _ => ?_
    cases p.drained <;> simp

theorem readBody_ok {n : Nat} {s : State} {y : State × List Byte} :
    readBody n s = .ok y ↔
      ∃ x, deliverPending n s = .ok x ∧
        ((n ≤ s.partialBytesOut.toNat ∧ y = x) ∨
          (s.partialBytesOut.toNat < n ∧ x.1.readFrameId = x.1.writeFrameId ∧
            y = (x.1, x.2 ++ zeros (n - s.partialBytesOut.toNat))) ∨
          (s.partialBytesOut.toNat < n ∧ x.1.readFrameId ≠ x.1.writeFrameId ∧
            deliverFrames (n - s.partialBytesOut.toNat) x.2 x.1 = .ok y)) := by
  rw [readBody, except_bind_ok]
  refine exists_congr fun x => and_congr_right fun _ => ?_
  rcases Nat.lt_or_ge s.partialBytesOut.toNat n with hlt | hge
  · rw [Nat.min_eq_right hlt.le, if_neg (by omega)]
    split_ifs with hc <;> simp [hlt, Nat.not_le.2 hlt, hc, eq_comm]
  · rw [Nat.min_eq_left hge, Nat.sub_self, if_pos rfl]
    simp [hge, Nat.not_lt.2 hge, eq_comm]

/-- Every next state of `READ` (R170). -/
theorem execRead_next {len : Word} {s t : State} (h : execRead len s = .next t) :
    (∃ c, t = s.respond (failResponse c s.fault)) ∨
    (∃ c, t = (s.recordFault c).respond (failResponse .fault (setFaultBit s.fault c))) ∨
    (s.liveStorage = true ∧ len ≠ 0#32 ∧ (s.mustConvert len.toNat = true → s.livePfo = true ∧ s.convSupported = true) ∧
      ∃ y, readBody len.toNat s = .ok y ∧ t = y.1.respond (okResponse y.1.fault y.2)) := by
  rw [execRead] at h
  split_ifs at h with h1 h2 h3 h4
  · exact .inl ⟨_, (Host.Outcome.next.inj h).symm⟩
  · exact .inl ⟨_, (Host.Outcome.next.inj h).symm⟩
  · exact .inr (.inl ⟨_, (Host.Outcome.next.inj h).symm⟩)
  · exact .inr (.inl ⟨_, (Host.Outcome.next.inj h).symm⟩)
  · refine .inr (.inr ⟨by simpa using h1, h2, fun hm => ?_, finish_next.1 h⟩)
    simp only [hm, true_and, Bool.not_eq_false] at h3 h4
    exact ⟨h3, h4⟩

/-! ### The lifecycle commands (R120, R125) -/

/-- Every next state of `INIT_IN` (R120). -/
theorem execInitIn_next {desc : Option Descriptor} {s t : State} (h : execInitIn desc s = .next t) :
    (∃ c, t = s.respond (failResponse c s.fault)) ∨
    (t = s.afterDraw.respond (failResponse .allocationFailure s.fault)) ∨
    (∃ d, desc = some d ∧ s.liveStorage = false ∧ inputFormatValid s.cfg d = true ∧ d.frameSize ≤ s.cfg.frameMax ∧
      capacityFor s.cfg d ≤ s.cfg.storageMax ∧ s.grantNow = true ∧
      t = (s.afterDraw.commitInput d).respond (okResponse s.fault [])) := by
  unfold execInitIn at h
  split_ifs at h with h1
  · exact .inl ⟨_, (Host.Outcome.next.inj h).symm⟩
  · cases desc with
    | none => exact .inl ⟨_, (Host.Outcome.next.inj h).symm⟩
    | some d =>
      simp only at h
      split_ifs at h with h2 h3
      · exact .inl ⟨_, (Host.Outcome.next.inj h).symm⟩
      · exact .inr (.inl (Host.Outcome.next.inj h).symm)
      · simp only [not_or, Nat.not_lt, Bool.not_eq_false] at h2 h3
        exact .inr (.inr ⟨d, rfl, by simpa using h1, h2, h3.1, h3.2.1, h3.2.2, (Host.Outcome.next.inj h).symm⟩)

/-- Every next state of `INIT_OUT` (R125). -/
theorem execInitOut_next {desc : Option Descriptor} {s t : State} (h : execInitOut desc s = .next t) :
    (∃ c, t = s.respond (failResponse c s.fault)) ∨
    (t = s.afterDraw.respond (failResponse .allocationFailure s.fault)) ∨
    (∃ d, desc = some d ∧ outputFormatValid s.cfg d = true ∧ d.frameSize ≤ s.cfg.frameMax ∧ s.grantNow = true ∧
      t = (s.afterDraw.commitOutput d).respond (okResponse s.fault [])) := by
  unfold execInitOut at h
  cases desc with
  | none => exact .inl ⟨_, (Host.Outcome.next.inj h).symm⟩
  | some d =>
    simp only at h
    split_ifs at h with h2 h3
    · exact .inl ⟨_, (Host.Outcome.next.inj h).symm⟩
    · exact .inr (.inl (Host.Outcome.next.inj h).symm)
    · simp only [not_or, Nat.not_lt, Bool.not_eq_false] at h2 h3
      exact .inr (.inr ⟨d, rfl, h2, h3.1, h3.2, (Host.Outcome.next.inj h).symm⟩)

end Sys2Proof.Machine
end

