-- ==== Sys2Proof/Laws/Guard.lean ====
section
/-! SUPPORT. What each move can do, said once (spec/43_guard.md rule R211). -/

namespace Sys2Proof.Machine

theorem presentRequest_next {p : Nat} {req : Request} {s t : State} (h : presentRequest p req s = .next t) :
    s.ports[p]? = some .idle ∧
      ((∃ i, decode s.cfg.extMax req = .ok i ∧ t = s.setPort p (.waiting req)) ∨
        (∃ e, decode s.cfg.extMax req = .error e ∧ e ≠ .payload ∧
          t = s.setPort p (.responding (failResponse .illegalCommand s.fault)))) := by
  unfold presentRequest at h
  split at h
  · cases h
  · rename_i hp
    refine ⟨hp, ?_⟩
    split at h
    · rename_i i hi
      exact .inl ⟨i, hi, (Host.Outcome.next.inj h).symm⟩
    · cases h
    · rename_i e hne he
      exact .inr ⟨e, he, fun heq => hne heq, (Host.Outcome.next.inj h).symm⟩
  · cases h

theorem tryAcquire_next {p : Nat} {s t : State} (h : tryAcquire p s = .next t) :
    ∃ req, s.ports[p]? = some (.waiting req) ∧
      ((s.lock = true ∧ t = s) ∨ (s.lock = false ∧ t = s.acquire p req)) := by
  unfold tryAcquire at h
  split at h
  · cases h
  · rename_i req hp
    refine ⟨req, hp, ?_⟩
    split_ifs at h with hl
    · exact .inl ⟨hl, (Host.Outcome.next.inj h).symm⟩
    · exact .inr ⟨by simpa using hl, (Host.Outcome.next.inj h).symm⟩
  · cases h

theorem handOver_next {p : Nat} {s t : State} (h : handOver p s = .next t) :
    ∃ r, s.ports[p]? = some (.responding r) ∧ t = (s.setPort p .idle).emit (.response p r) := by
  unfold handOver at h
  split at h
  · cases h
  · rename_i r hp
    exact ⟨r, hp, (Host.Outcome.next.inj h).symm⟩
  · cases h

theorem heldRequest_some {s : State} {req : Request} :
    s.heldRequest = some req ↔ s.lock = true ∧ s.ports[s.owner]? = some (.holding req) := by
  unfold State.heldRequest
  cases s.lock with
  | false => simp
  | true =>
    simp only [if_true, true_and]
    split
    · rename_i r hr
      simp [hr]
    · rename_i hne
      constructor
      · intro h
        cases h
      · intro h
        exact absurd h (hne req)

theorem fetch_ok {s : State} {i : Instr} :
    s.fetch = .ok i ↔ ∃ req, s.heldRequest = some req ∧ decode s.cfg.extMax req = .ok i := by
  unfold State.fetch
  cases s.heldRequest with
  | none => simp
  | some req =>
    simp only [Option.some.injEq, exists_eq_left']
    cases decode s.cfg.extMax req with
    | ok j => simp
    | error e => simp

theorem runBody_next {s t : State} (h : runBody s = .next t) : ∃ i, s.fetch = .ok i ∧ exec i s = .next t := by
  unfold runBody at h
  split at h
  · rename_i i hi
    exact ⟨i, hi, h⟩
  · cases h

theorem runBody_of_fetch {s : State} {i : Instr} (h : s.fetch = .ok i) : runBody s = exec i s := by
  unfold runBody
  rw [h]

/-- Every next state of a move is one of these. -/
theorem applyMove_next {m : Move} {s t : State} (h : applyMove m s = .next t) :
    (∃ p req, m = .present p req ∧ presentRequest p req s = .next t) ∨
    (∃ p, m = .tryAcquire p ∧ tryAcquire p s = .next t) ∨
    (∃ i, m = .runBody ∧ s.fetch = .ok i ∧ exec i s = .next t) ∨
    (∃ p, m = .handOver p ∧ handOver p s = .next t) ∨
    (m = .hardReset ∧ t = s.hardReset) ∨
    (∃ n, m = .readWindow n ∧ t = s.emit (.windowWord n (s.windowWord n))) ∨
    (∃ n v, m = .writeWindow n v ∧ t = s) := by
  cases m with
  | present p req => exact .inl ⟨p, req, rfl, h⟩
  | tryAcquire p => exact .inr (.inl ⟨p, rfl, h⟩)
  | runBody =>
    obtain ⟨i, hf, he⟩ := runBody_next h
    exact .inr (.inr (.inl ⟨i, rfl, hf, he⟩))
  | handOver p => exact .inr (.inr (.inr (.inl ⟨p, rfl, h⟩)))
  | hardReset => exact .inr (.inr (.inr (.inr (.inl ⟨rfl, (Host.Outcome.next.inj h).symm⟩))))
  | readWindow n => exact .inr (.inr (.inr (.inr (.inr (.inl ⟨n, rfl, (Host.Outcome.next.inj h).symm⟩)))))
  | writeWindow n v => exact .inr (.inr (.inr (.inr (.inr (.inr ⟨n, v, rfl, (Host.Outcome.next.inj h).symm⟩)))))

end Sys2Proof.Machine
end

