-- ==== Sys2Proof/Laws/Frames.lean ====
section
/-! SUPPORT. What each meaning leaves alone, operation by operation (spec/10_state.md rule R29). -/

namespace Sys2Proof.Machine

/-- What no body writes before its release: the guard, the ports, `FAULT` and the environment's record. -/
abbrev SameOutside (s t : State) : Prop :=
  t.lock = s.lock ∧ t.owner = s.owner ∧ t.ports = s.ports ∧ t.fault = s.fault ∧ SameEnvironment s t ∧ NoTraffic s t

/-- The sizes and formats of the input side. -/
abbrev SameInputShape (s t : State) : Prop :=
  t.frameSizeIn = s.frameSizeIn ∧ t.numFrames = s.numFrames ∧ t.capacity = s.capacity ∧ t.fmtIn = s.fmtIn ∧
    t.liveStorage = s.liveStorage ∧ t.livePfi = s.livePfi

/-- What the steps of `WRITE` leave alone. -/
abbrev WriteFrame (s t : State) : Prop :=
  SameOutput s t ∧ SameInputShape s t ∧ SameOutside s t

/-- What the steps of `READ` leave alone. -/
abbrev ReadFrame (s t : State) : Prop :=
  t.writeFrameId = s.writeFrameId ∧ SameInput s t ∧ t.frameSizeOut = s.frameSizeOut ∧ t.fmtOut = s.fmtOut ∧
    t.livePfo = s.livePfo ∧ SameOutside s t

theorem WriteFrame.refl (s : State) : WriteFrame s s := by and_intros <;> rfl

theorem WriteFrame.trans {s t u : State} (h : WriteFrame s t) (h' : WriteFrame t u) : WriteFrame s u := by
  simp_all only [WriteFrame, SameOutput, SameInputShape, SameOutside, SameEnvironment, NoTraffic, and_self]

theorem ReadFrame.refl (s : State) : ReadFrame s s := by and_intros <;> rfl

theorem ReadFrame.trans {s t u : State} (h : ReadFrame s t) (h' : ReadFrame t u) : ReadFrame s u := by
  simp_all only [ReadFrame, SameInput, SameOutside, SameEnvironment, NoTraffic, and_self]

/-! ### The write path -/

theorem memWrite_pfi_frame {s t : State} {a : Nat} {bs : List Byte} (h : memWrite s .pfi a bs = .ok t) :
    WriteFrame s t := by
  obtain ⟨-, rfl⟩ := memWrite_ok.1 h
  and_intros <;> rfl

theorem commitFrame_frame {s t : State} {f : List Byte} (h : commitFrame f s = .ok t) :
    WriteFrame s t ∧ t.pfi = s.pfi ∧ t.partialBytesIn = s.partialBytesIn := by
  obtain ⟨-, -, rfl⟩ := commitFrame_ok.1 h
  and_intros <;> rfl

theorem setPartialIn_frame (s : State) (n : Nat) : WriteFrame s (s.setPartialIn n) := by
  and_intros <;> rfl

theorem completePartial_frame {b : List Byte} {s : State} {y : State × List Byte} (h : completePartial b s = .ok y) :
    WriteFrame s y.1 := by
  obtain ⟨-, rfl⟩ | ⟨-, -, s1, h1, ⟨-, rfl⟩ | ⟨-, f, s3, s4, -, h3, h4, rfl⟩⟩ := completePartial_ok h
  · exact .refl s
  · exact (memWrite_pfi_frame h1).trans (setPartialIn_frame _ _)
  · exact ((memWrite_pfi_frame h1).trans (setPartialIn_frame _ _)).trans
      ((commitFrame_frame h3).1.trans (memWrite_pfi_frame h4))

theorem commitWhole_frame {n : Nat} {b : List Byte} {s : State} {y : State × List Byte}
    (h : commitWhole n b s = .ok y) :
    WriteFrame s y.1 ∧ y.1.pfi = s.pfi ∧ y.1.partialBytesIn = s.partialBytesIn := by
  induction n generalizing b s with
  | zero =>
    cases h
    exact ⟨.refl s, rfl, rfl⟩
  | succ n ih =>
    obtain ⟨s1, h1, h2⟩ := commitWhole_succ_ok.1 h
    have hf := commitFrame_frame h1
    have hr := ih h2
    exact ⟨hf.1.trans hr.1, hr.2.1.trans hf.2.1, hr.2.2.trans hf.2.2⟩

theorem keepTail_frame {b : List Byte} {s t : State} (h : keepTail b s = .ok t) :
    WriteFrame s t ∧ t.storage = s.storage ∧ SameCursors s t := by
  obtain ⟨-, rfl⟩ | ⟨-, s1, h1, rfl⟩ := keepTail_ok.1 h
  · exact ⟨.refl t, rfl, rfl, rfl⟩
  · obtain ⟨-, rfl⟩ := memWrite_ok.1 h1
    and_intros <;> rfl

/-- The steps of `WRITE` leave the output side, the sizes and formats of the input side, and everything outside the
block's data path alone. -/
theorem writeBody_frame {b : List Byte} {s t : State} (h : writeBody b s = .ok t) : WriteFrame s t := by
  obtain ⟨x, y, hx, hy, ht⟩ := writeBody_ok.1 h
  exact ((completePartial_frame hx).trans (commitWhole_frame (commitFrames_ok.1 hy).2).1).trans (keepTail_frame ht).1

/-! ### The read path -/

theorem memWrite_pfo_frame {s t : State} {a : Nat} {bs : List Byte} (h : memWrite s .pfo a bs = .ok t) :
    ReadFrame s t ∧ t.readFrameId = s.readFrameId ∧ t.partialBytesOut = s.partialBytesOut := by
  obtain ⟨-, rfl⟩ := memWrite_ok.1 h
  and_intros <;> rfl

theorem setPartialOut_frame (s : State) (n : Nat) : ReadFrame s (s.setPartialOut n) := by
  and_intros <;> rfl

theorem deliverPending_frame {n : Nat} {s : State} {y : State × List Byte} (h : deliverPending n s = .ok y) :
    ReadFrame s y.1 ∧ y.1.readFrameId = s.readFrameId := by
  obtain ⟨-, rfl⟩ | ⟨-, -, out, -, ⟨-, rfl⟩ | ⟨-, s2, h2, rfl⟩⟩ := deliverPending_ok h
  · exact ⟨.refl s, rfl⟩
  · exact ⟨setPartialOut_frame _ _, rfl⟩
  · have hf := memWrite_pfo_frame h2
    exact ⟨(setPartialOut_frame _ _).trans hf.1, hf.2.1⟩

theorem takeFrame_frame {s : State} {y : State × List Byte} (h : takeFrame s = .ok y) :
    ReadFrame s y.1 ∧ y.1.pfo = s.pfo ∧ y.1.partialBytesOut = s.partialBytesOut := by
  obtain ⟨-, -, rfl⟩ := takeFrame_ok.1 h
  and_intros <;> rfl

theorem takeWhole_frame {n : Nat} {s : State} {out : List Byte} {rem : Nat} {p : ReadProgress}
    (h : takeWhole n s out rem = .ok p) :
    ReadFrame s p.state ∧ p.state.pfo = s.pfo ∧ p.state.partialBytesOut = s.partialBytesOut := by
  induction n generalizing s out rem with
  | zero =>
    cases h
    exact ⟨.refl s, rfl, rfl⟩
  | succ n ih =>
    obtain ⟨x, hx, ⟨-, rfl⟩ | ⟨-, hr⟩⟩ := takeWhole_succ_ok.1 h
    · exact takeFrame_frame hx
    · have hf := takeFrame_frame hx
      have hi := ih hr
      exact ⟨hf.1.trans hi.1, hi.2.1.trans hf.2.1, hi.2.2.trans hf.2.2⟩

theorem silentTail_frame {p : ReadProgress} {y : State × List Byte} (h : silentTail p = .ok y) :
    ReadFrame p.state y.1 ∧ y.1.readFrameId = p.state.readFrameId := by
  obtain ⟨-, rfl⟩ | ⟨-, s1, h1, rfl⟩ := silentTail_ok.1 h
  · exact ⟨.refl _, rfl⟩
  · have hf := memWrite_pfo_frame h1
    exact ⟨hf.1.trans (setPartialOut_frame _ _), hf.2.1⟩

theorem fractionalFrame_frame {p : ReadProgress} {y : State × List Byte} (h : fractionalFrame p = .ok y) :
    ReadFrame p.state y.1 := by
  obtain ⟨-, rfl⟩ | ⟨-, x, s1, head, hx, h1, -, rfl⟩ := fractionalFrame_ok.1 h
  · exact .refl _
  · exact ((takeFrame_frame hx).1.trans (memWrite_pfo_frame h1).1).trans (setPartialOut_frame _ _)

theorem deliverFrames_frame {rem : Nat} {out : List Byte} {s : State} {y : State × List Byte}
    (h : deliverFrames rem out s = .ok y) : ReadFrame s y.1 := by
  obtain ⟨-, p, hp, ⟨-, h1⟩ | ⟨-, h1⟩⟩ := deliverFrames_ok.1 h
  · exact (takeWhole_frame hp).1.trans (silentTail_frame h1).1
  · exact (takeWhole_frame hp).1.trans (fractionalFrame_frame h1)

/-- The steps of `READ` leave the input side, the write cursor, the size and format of the output side, and everything
outside the block's data path alone. -/
theorem readBody_frame {n : Nat} {s : State} {y : State × List Byte} (h : readBody n s = .ok y) : ReadFrame s y.1 := by
  obtain ⟨x, hx, ⟨-, rfl⟩ | ⟨-, -, rfl⟩ | ⟨-, -, hd⟩⟩ := readBody_ok.1 h
  · exact (deliverPending_frame hx).1
  · exact (deliverPending_frame hx).1
  · exact (deliverPending_frame hx).1.trans (deliverFrames_frame hd)

/-! ### Every command -/

/-- Every next state of a command: a failure that only answered, an allocation that was denied, a fault that was
recorded, or one of the five effects, each behind the release of the guard (R205, R220). -/
theorem exec_next {i : Instr} {s t : State} (h : exec i s = .next t) :
    (∃ c, t = s.respond (failResponse c s.fault)) ∨
    (t = s.afterDraw.respond (failResponse .allocationFailure s.fault)) ∨
    (∃ c, t = (s.recordFault c).respond (failResponse .fault (setFaultBit s.fault c))) ∨
    (∃ d, i = .initIn (some d) ∧ t = (s.afterDraw.commitInput d).respond (okResponse s.fault [])) ∨
    (∃ d, i = .initOut (some d) ∧ t = (s.afterDraw.commitOutput d).respond (okResponse s.fault [])) ∨
    (∃ len b u, i = .write len (some b) ∧ writeBody b s = .ok u ∧ t = u.respond (okResponse u.fault [])) ∨
    (∃ len y, i = .read len ∧ readBody len.toNat s = .ok y ∧ t = y.1.respond (okResponse y.1.fault y.2)) ∨
    (i = .reset ∧ t = s.release.respond (okResponse s.fault [])) := by
  cases i with
  | initIn desc =>
    obtain hf | hf | ⟨d, rfl, -, -, -, -, -, rfl⟩ := execInitIn_next h
    · exact .inl hf
    · exact .inr (.inl hf)
    · exact .inr (.inr (.inr (.inl ⟨d, rfl, rfl⟩)))
  | initOut desc =>
    obtain hf | hf | ⟨d, rfl, -, -, -, rfl⟩ := execInitOut_next h
    · exact .inl hf
    · exact .inr (.inl hf)
    · exact .inr (.inr (.inr (.inr (.inl ⟨d, rfl, rfl⟩))))
  | write len bytes =>
    obtain hf | ⟨-, -, b, u, rfl, hu, rfl⟩ := execWrite_next h
    · exact .inl hf
    · exact .inr (.inr (.inr (.inr (.inr (.inl ⟨len, b, u, rfl, hu, rfl⟩)))))
  | read len =>
    obtain hf | hf | ⟨-, -, -, y, hy, rfl⟩ := execRead_next h
    · exact .inl hf
    · exact .inr (.inr (.inl hf))
    · exact .inr (.inr (.inr (.inr (.inr (.inr (.inl ⟨len, y, rfl, hy, rfl⟩))))))
  | reset =>
    exact .inr (.inr (.inr (.inr (.inr (.inr (.inr ⟨rfl, (Host.Outcome.next.inj h).symm⟩))))))

end Sys2Proof.Machine
end

