-- ==== Sys2Proof/Laws/PerInstr.lean ====
section
/-! SUPPORT. The per-instruction family `EncodesItsRow`: the word of a command selects the row of the opcode map that stands
for the command, and no other (spec/30_encoding.md rule R110). -/

namespace Sys2Proof

/-- The row of the opcode map a command belongs to. -/
def Instr.opcode : Instr → Opcode
  | .initIn _ => .initIn
  | .initOut _ => .initOut
  | .write _ _ => .write
  | .read _ => .read
  | .reset => .reset

namespace Laws.EncodesItsRow

/-- The word of the command selects its row and no other. -/
def Statement (i : Instr) : Prop :=
  ∀ o : Opcode, o.selects (encode i).word = true ↔ o = i.opcode

theorem initIn (desc : Option Descriptor) : Statement (.initIn desc) := by
  intro o
  cases desc <;> cases o <;> simp [selects_iff, encode, cmdWord, Opcode.code, Instr.opcode]

theorem initOut (desc : Option Descriptor) : Statement (.initOut desc) := by
  intro o
  cases desc <;> cases o <;> simp [selects_iff, encode, cmdWord, Opcode.code, Instr.opcode]

theorem write (len : Word) (bytes : Option (List Byte)) : Statement (.write len bytes) := by
  intro o
  cases bytes <;> cases o <;> simp [selects_iff, encode, cmdWord, Opcode.code, Instr.opcode]

theorem read (len : Word) : Statement (.read len) := by
  intro o
  cases o <;> simp [selects_iff, encode, cmdWord, Opcode.code, Instr.opcode]

theorem reset : Statement .reset := by
  intro o
  cases o <;> simp [selects_iff, encode, cmdWord, Opcode.code, Instr.opcode]

end Laws.EncodesItsRow

end Sys2Proof
end

