-- ==== Sys2Proof/Laws/Runs.lean ====
section
/-! SUPPORT. Runs taken one step at a time, and which phases and outputs answer a fault (spec/43_guard.md rule R211,
spec/60_exceptions.md rule R224). -/

namespace Sys2Proof.Machine

/-! ### Runs -/

@[simp] theorem core_run_zero (s : State) : core.run 0 s = .next s := rfl

/-- A run of `k + 1` steps is a step and a run of `k` steps, on any machine. -/
theorem host_run_succ {M : Host.Core} {k : Nat} {s t : M.State} :
    M.run (k + 1) s = .next t ↔ ∃ u, M.step s = .next u ∧ M.run k u = .next t := by
  rw [Host.Core.run]
  cases M.step s with
  | next u => exact ⟨fun h => ⟨u, rfl, h⟩, fun ⟨_, h, h'⟩ => Host.Outcome.next.inj h ▸ h'⟩
  | fault f => exact ⟨fun h => (nomatch h), fun ⟨_, h, _⟩ => (nomatch h)⟩
  | refused r => exact ⟨fun h => (nomatch h), fun ⟨_, h, _⟩ => (nomatch h)⟩

/-- A run of `k + 1` steps is a step and a run of `k` steps. -/
theorem core_run_succ {k : Nat} {s t : State} :
    core.run (k + 1) s = .next t ↔ ∃ u : State, step s = .next u ∧ core.run k u = .next t :=
  host_run_succ (M := core)

/-- The next move is the head of the schedule where there is one. -/
theorem nextMove_of_schedule {s : State} {m : Move} {ms : List Move} (h : s.schedule = m :: ms) : s.nextMove = m := by
  simp [State.nextMove, h]

theorem afterMove_schedule_of_schedule {s : State} {m : Move} {ms : List Move} (h : s.schedule = m :: ms) :
    s.afterMove.schedule = ms := by
  simp [State.afterMove, h]

/-- A step whose move the schedule gives is that move, on the state with the move taken. -/
theorem step_of_schedule {s : State} {m : Move} {ms : List Move} (h : s.schedule = m :: ms) :
    step s = applyMove m s.afterMove := by
  rw [step, nextMove_of_schedule h]

/-! ### Answers with `CAUSE = 6` -/

@[simp] theorem answersFault_idle : Phase.idle.answersFault = false := rfl

@[simp] theorem answersFault_waiting (req : Request) : (Phase.waiting req).answersFault = false := rfl

@[simp] theorem answersFault_holding (req : Request) : (Phase.holding req).answersFault = false := rfl

@[simp] theorem answersFault_responding (r : Response) :
    (Phase.responding r).answersFault = (r.cause == causeCode .fault) := rfl

@[simp] theorem answersFault_response (p : Nat) (r : Response) :
    (Output.response p r).answersFault = (r.cause == causeCode .fault) := rfl

@[simp] theorem answersFault_windowWord (n : Fin 18) (w : Word) : (Output.windowWord n w).answersFault = false := rfl

@[simp] theorem answersFault_alloc (sp : Space) (n : Nat) : (Output.alloc sp n).answersFault = false := rfl

@[simp] theorem answersFault_free (sp : Space) : (Output.free sp).answersFault = false := rfl

/-- Freeing regions answers nobody. -/
theorem answersFault_frees {s : State} {o : Output} (h : o ∈ s.frees) : o.answersFault = false := by
  simp only [State.frees, List.mem_append] at h
  rcases h with (h | h) | h <;> (split_ifs at h <;> simp_all)

/-- A fault bit, once set, is not zero. -/
theorem setFaultBit_ne_zero (faults : BitVec 8) (c : FaultCode) : setFaultBit faults c ≠ 0#8 := by
  cases c <;> (revert faults; decide)

end Sys2Proof.Machine
end

