-- ==== Sys2Proof/Tests/Slice0.lean ====
section
/-! SUPPORT. Tests: ill-formed terms, words written out from spec/30_encoding.md and the vectors V-E of
spec/95_test_vectors.md, one-step vectors of spec/95, and for every obligation with hypotheses a state and operands that
meet them. -/

namespace Sys2Proof.Tests

open Sys2Proof Sys2Proof.Machine

/-! ### Terms and states -/

/-- `PCM(ch, bits, rate)` (R106). -/
def pcm (ch bits rate : Nat) : Descriptor :=
  ⟨0x00010001, BitVec.ofNat 32 (bits * 65536 + ch), BitVec.ofNat 32 rate, 0, []⟩

/-- A descriptor with an extension of the greatest length `T8` allows (V-E17). -/
def extended : Descriptor := ⟨0x0005FFFE, 0x00200002, 4, 0x00000016, List.replicate 22 0xAB⟩

/-- Hardware reset under `T8`. -/
def fresh : State := State.resetWith Config.T8

/-- `INIT_IN PCM(2, 16, 4)` has succeeded, `INIT_OUT` has not been given (start of V-RD18). -/
def inputOnly : State :=
  { fresh with
    fmtIn := pcm 2 16 4
    frameSizeIn := 4
    numFrames := 8
    capacity := 32
    liveStorage := true
    livePfi := true
    trace := [.alloc .storage 32, .alloc .pfi 4] }

/-- The streaming start state `S0` of spec/95. -/
def streaming : State :=
  { inputOnly with
    fmtOut := pcm 2 32 4
    frameSizeOut := 8
    livePfo := true
    trace := [.alloc .storage 32, .alloc .pfi 4, .alloc .pfo 8] }

/-- `S0` with seven frames unread, the most there can be, and three bytes of the next held. -/
def full : State :=
  { streaming with
    writeFrameId := 7
    partialBytesIn := 1
    storage := Memory.writeBytes [] 0 [1, 0, 2, 0, 3, 0, 4, 0, 5, 0, 6, 0, 7, 0, 8]
    pfi := [(0, 0xA1), (1, 0xA2), (2, 0xA3)] }

/-- The state after V-RD3: one frame unread, five converted bytes kept. -/
def keeping : State :=
  { streaming with
    writeFrameId := 2
    readFrameId := 1
    partialBytesOut := 5
    storage := [(0, 1), (2, 2), (4, 3), (6, 4)]
    pfo := [(2, 1), (6, 2)] }

/-- The state of V-RD14 after its first `READ`: the ring empty, five converted bytes kept. -/
def drained : State :=
  { keeping with writeFrameId := 1 }

/-- `S0` after `WRITE.S16 1, 2, 3, 4` (start of V-RD3). -/
def twoFrames : State :=
  { streaming with
    writeFrameId := 2
    storage := [(0, 1), (2, 2), (4, 3), (6, 4)] }

/-- V-RD19: one frame unread, no output side. -/
def unconverted : State :=
  { inputOnly with writeFrameId := 1, storage := [(0, 1), (2, 2)] }

/-- V-RD21: one frame unread, the output side with another channel count. -/
def mismatched : State :=
  { unconverted with
    fmtOut := pcm 1 32 4
    frameSizeOut := 4
    livePfo := true
    trace := [.alloc .storage 32, .alloc .pfi 4, .alloc .pfo 4] }

/-- Port 0 holds the guard with a command and its body is the next move; port 1 waits with `READ 8`. -/
def holding (s : State) (i : Instr) : State :=
  { s with
    lock := true
    owner := 0
    ports := [.holding (encode i), .waiting (encode (.read 8)), .idle]
    schedule := [.runBody] }

/-- A state with one move scheduled. -/
def next (m : Move) (s : State) : State := { s with schedule := [m] }

/-- `writeFrameId, readFrameId, partialBytesIn, partialBytesOut` after a step. -/
def cursors : Result → Option (Nat × Nat × Nat × Nat)
  | .next t =>
    some (t.writeFrameId.toNat, t.readFrameId.toNat, t.partialBytesIn.toNat, t.partialBytesOut.toNat)
  | _ => none

/-- The response of port 0 after a step. -/
def answer : Result → Option (Word × List Byte)
  | .next t =>
    match t.ports[0]? with
    | some (Phase.responding r) => some (r.word, r.data)
    | _ => none
  | _ => none

/-- The first bytes of a memory after a step. -/
def bytes (sp : Space) (n : Nat) : Result → List Byte
  | .next t => Memory.readBytes (t.region sp) 0 n
  | _ => []

theorem fresh_legal : fresh.Legal := ⟨by decide, by decide, by decide, by decide, by decide, by decide⟩

theorem inputOnly_legal : inputOnly.Legal := ⟨by decide, by decide, by decide, by decide, by decide, by decide⟩

theorem streaming_legal : streaming.Legal := ⟨by decide, by decide, by decide, by decide, by decide, by decide⟩

theorem full_legal : full.Legal := ⟨by decide, by decide, by decide, by decide, by decide, by decide⟩

theorem keeping_legal : keeping.Legal := ⟨by decide, by decide, by decide, by decide, by decide, by decide⟩

theorem unconverted_legal : unconverted.Legal := ⟨by decide, by decide, by decide, by decide, by decide, by decide⟩

theorem drained_legal : drained.Legal := ⟨by decide, by decide, by decide, by decide, by decide, by decide⟩

theorem twoFrames_legal : twoFrames.Legal := ⟨by decide, by decide, by decide, by decide, by decide, by decide⟩

theorem holding_legal : (holding full (.write 1 (some [0xA4]))).Legal :=
  ⟨by decide, by decide, by decide, by decide, by decide, by decide⟩

/-! ### Ill-formed terms are refused (R94, R96, R103) -/

theorem test_wf_ext_length_initIn : (Instr.initIn (some { extended with ext := [] })).wellFormed 22 = false := by decide

theorem test_wf_ext_length_initOut : (Instr.initOut (some { extended with ext := [0] })).wellFormed 22 = false := by decide

theorem test_wf_ext_max_initIn : (Instr.initIn (some extended)).wellFormed 21 = false := by decide

theorem test_wf_ext_max_initOut : (Instr.initOut (some extended)).wellFormed 21 = false := by decide

theorem test_wf_write_length : (Instr.write 4 (some [1, 2, 3])).wellFormed 22 = false := by decide

/-! ### Words written out from the encoding (R92, R93, V-E1 to V-E18) -/

theorem test_decode_initIn :
    (decode 22 ⟨0x0100000100000000, [1, 0, 1, 0, 2, 0, 0x10, 0, 4, 0, 0, 0, 0, 0, 0, 0]⟩).toOption =
      some (.initIn (some ⟨0x00010001, 0x00100002, 4, 0, []⟩)) := by decide

theorem test_decode_initIn_null : (decode 22 ⟨0x0100000000000000, []⟩).toOption = some (.initIn none) := by decide

theorem test_decode_initOut :
    (decode 22 ⟨0x0200000100000000,
      [0xFE, 0xFF, 5, 0, 2, 0, 0x20, 0, 4, 0, 0, 0, 2, 0, 0, 0, 0xAB, 0xCD]⟩).toOption =
      some (.initOut (some ⟨0x0005FFFE, 0x00200002, 4, 2, [0xAB, 0xCD]⟩)) := by decide

theorem test_decode_write :
    (decode 22 ⟨0x0300000100000004, [0x64, 0, 0x9C, 0xFF]⟩).toOption = some (.write 4 (some [0x64, 0, 0x9C, 0xFF])) := by
  decide

theorem test_decode_write_null : (decode 22 ⟨0x0300000000000004, []⟩).toOption = some (.write 4 none) := by decide

theorem test_decode_write_empty : (decode 22 ⟨0x0300000100000000, []⟩).toOption = some (.write 0 (some [])) := by decide

theorem test_decode_write_longest : (classify 0x03000001FFFFFFFF).toOption = some .write := by decide

/-- The word from its fields: `OPC = 00000100`, `RSV` zero, `PV = 0`, `LEN = 8`. -/
theorem test_decode_read :
    (decode 22 ⟨0b00000100#8 ++ 0b00000000000000000000000#23 ++ 0b0#1 ++ 0b00000000000000000000000000001000#32,
      []⟩).toOption = some (.read 8) := by decide

theorem test_decode_reset : (decode 22 ⟨0x0500000000000000, []⟩).toOption = some .reset := by decide

/-- `CHANNELS`, `BITS`, `RATE`, `TAG`, `SPEC`, `SUBPCM`, `EXT_LEN` are where R96 puts them. -/
theorem test_descriptor_fields :
    let d : Descriptor := ⟨0xFFFEFFFE, 0x00200003, 0x0000BB80, 0xFFFF0016, []⟩
    d.tag = 0xFFFE ∧ d.spec = 2 ∧ d.subpcm = true ∧ d.channels = 3 ∧ d.bits = 32 ∧ d.rate = 48000 ∧ d.extLen = 22 := by
  decide

/-- V-E3, V-E9, V-E10, V-E13, V-E15, V-E16. -/
theorem test_illegal_words :
    ([0x0100000000000004, 0x0300000200000004, 0x0380000000000004, 0x0400000100000008, 0x0500000000000001,
      0x0500000100000000, 0x0000000000000000, 0x0600000000000000, 0xFF00000000000000] : List CmdWord).map
      (fun w => match classify w with | .ok _ => none | .error e => some e) =
      [some .length, some .reserved, some .reserved, some .pointer, some .length, some .pointer, some .opcode,
        some .opcode, some .opcode] := by decide

/-- V-E18: `EXT_LEN = 23 > EXT_MAX`. -/
theorem test_illegal_extension :
    (match decode 22 ⟨0x0100000100000000, descriptorBytes { pcm 2 16 4 with w3 := 23, ext := zeros 23 }⟩ with
      | .ok _ => none
      | .error e => some e) = some .extension := by decide

/-! ### One step of each command (spec/95 part 2) -/

/-- V-L8: `CAPACITY = STORAGE_MAX`. -/
theorem test_initIn_largest :
    (match exec (.initIn (some (pcm 2 16 131072))) { fresh with grants := [true] } with
      | .next t => (t.capacity.toNat, t.numFrames.toNat, t.frameSizeIn.toNat, t.liveStorage)
      | _ => (0, 0, 0, false)) = (1048576, 262144, 4, true) := by decide

/-- V-L12: `AlreadyInitialized` comes before the null check. -/
theorem test_initIn_twice : answer (exec (.initIn none) streaming) = some (0x00000030, []) := by decide

/-- V-L19: the cursors go to zero, the held half frame stays. -/
theorem test_initOut_keeps_held_bytes :
    let r := exec (.initOut (some (pcm 2 32 8)))
      { streaming with writeFrameId := 1, partialBytesIn := 2, pfi := [(0, 3)], grants := [true] }
    cursors r = some (0, 0, 2, 0) ∧ bytes .pfi 4 r = [3, 0, 0, 0] ∧ answer r = some (1, []) := by decide

/-- V-L15: the extensible tag with another subtype. -/
theorem test_initOut_subtype :
    answer (exec (.initOut (some ⟨0x0001FFFE, 0x00200002, 4, 0, []⟩)) fresh) = some (0x00000010, []) := by decide

/-- V-W6: the pending frame is completed, one frame goes straight, one byte is held. -/
theorem test_write_three_steps :
    let r := exec (.write 7 (some [0xD3, 0xD4, 0xD5, 0xD6, 0xD7, 0xD8, 0xD9]))
      { streaming with partialBytesIn := 2, pfi := [(0, 0xD1), (1, 0xD2)] }
    cursors r = some (2, 0, 3, 0) ∧ bytes .storage 8 r = [0xD1, 0xD2, 0xD3, 0xD4, 0xD5, 0xD6, 0xD7, 0xD8] ∧
      bytes .pfi 4 r = [0xD9, 0, 0, 0] := by decide

/-- V-W8: the commit that would make eight unread discards the oldest frame. -/
theorem test_write_discards_the_oldest :
    cursors (exec (.write 4 (some [7, 0, 0xF9, 0xFF])) { streaming with writeFrameId := 7 }) = some (0, 1, 0, 0) := by
  decide

/-- P3 line 6: kept bytes, a frame, silence, and a zero tail kept. -/
theorem test_read_drains :
    let r := exec (.read 20) { keeping with partialBytesOut := 3 }
    cursors r = some (2, 2, 0, 7) ∧ bytes .pfo 8 r = zeros 8 ∧
      answer r = some (1, [0, 2, 0, 0, 0, 3, 0, 0, 0, 4, 0] ++ zeros 9) := by decide

/-- V-RD19: `F_NOOUT`. -/
theorem test_read_faults :
    answer (exec (.read 8) unconverted) = some (0x00000160, []) ∧ cursors (exec (.read 8) unconverted) = some (1, 0, 0, 0) := by
  decide

/-- P4 line 12: `RESET` keeps the sticky bit. -/
theorem test_reset_keeps_fault : answer (exec .reset { keeping with fault := 1 }) = some (0x00000101, []) := by decide

/-- V-L20: every register is zero. -/
theorem test_reset_clears :
    cursors (exec .reset keeping) = some (0, 0, 0, 0) ∧ bytes .storage 8 (exec .reset keeping) = zeros 8 := by decide

/-- V-G2: an illegal request is answered while another port holds the guard. -/
theorem test_illegal_while_held :
    (match step (next (.present 2 ⟨0x0600000000000000, []⟩) (holding streaming .reset)) with
      | .next t => (t.lock, t.owner, t.ports[2]?)
      | _ => (false, 9, none)) = (true, 0, some (.responding ⟨0x00000050, []⟩)) := by decide

/-- V-E19: the status window after `S0`. -/
theorem test_window :
    streaming.window.toList = [7, 0, 0, 0, 0, 0, 4, 8, 8, 32, 0x00010001, 0x00100002, 4, 0, 0x00010001, 0x00200002, 4, 0] := by
  decide

/-- Port 0 holds the command of the word and its body is the next step: `WRITE` on a block at reset answers
`Uninitialized` (V-W12). -/
theorem test_withFetchWord :
    answer (step (State.reset.withFetchWord 96 0x000000000300000100000004)) = some (0x00000040, []) := by decide

/-- V-RD19 and V-C5 over a byte channel: the word low byte first, then the data (R91, R100). -/
theorem test_response_bytes :
    (Response.mk 0x00000160 []).toBytes = [0x60, 0x01, 0, 0] ∧
      (Response.mk 0x00000001 [0, 0, 0x9C, 0xFF]).toBytes = [1, 0, 0, 0, 0, 0, 0x9C, 0xFF] ∧
      Response.ofBytes (.read 4) [1, 0, 0, 0, 0, 0, 0x9C, 0xFF, 0x77] = some (⟨1, [0, 0, 0x9C, 0xFF]⟩, [0x77]) ∧
      Response.ofBytes (.read 4) [0x60, 0x01, 0, 0, 0x77] = some (⟨0x00000160, []⟩, [0x77]) ∧
      Response.ofBytes (.read 4) [1, 0, 0, 0, 0] = none := by decide

/-! ### The hypotheses of each obligation are met -/

theorem witness_DecodeOfEncode :
    (Instr.initIn (some extended)).wellFormed 22 = true ∧ (Instr.write 0xFFFFFFFF none).wellFormed 0 = true := by decide

theorem witness_EncodeOfDecode :
    decode 22 ⟨0x0300000100000004, [0x64, 0, 0x9C, 0xFF]⟩ = .ok (.write 4 (some [0x64, 0, 0x9C, 0xFF])) := rfl

theorem witness_DecodedIsWellFormed : decode 0 ⟨0x04000000FFFFFFFF, []⟩ = .ok (.read 0xFFFFFFFF) := rfl

theorem witness_OpcodeMapSelectsTheCommand :
    Opcode.write.selects 0x03000001FFFFFFFF = true ∧ Opcode.initIn.selects 0x0100000100000000 = true := by decide

theorem witness_ByteChannelRoundTrip : (Instr.initOut (some extended)).wellFormed 22 = true := by decide

/-- The greatest storage and the greatest frame `T8` can grant (V-L8, V-L10). -/
theorem witness_InitInCompletes :
    let s := { fresh with grants := [true] }
    s.cfg.Legal ∧ s.liveStorage = false ∧ s.grantNow = true ∧
      (inputFormatValid s.cfg (pcm 2 16 131072) = true ∧ (pcm 2 16 131072).frameSize ≤ s.cfg.frameMax ∧
        capacityFor s.cfg (pcm 2 16 131072) = s.cfg.storageMax) ∧
      inputFormatValid s.cfg (pcm 1024 32 1) = true ∧ (pcm 1024 32 1).frameSize = s.cfg.frameMax ∧
        capacityFor s.cfg (pcm 1024 32 1) ≤ s.cfg.storageMax := by decide

/-- V-L12, V-L1, V-L5, V-L11, V-L9, V-L7. -/
theorem witness_InitInFailures :
    streaming.liveStorage = true ∧ fresh.liveStorage = false ∧ inputFormatValid fresh.cfg (pcm 2 12 4) = false ∧
      (inputFormatValid fresh.cfg (pcm 1025 32 1) = true ∧ fresh.cfg.frameMax < (pcm 1025 32 1).frameSize) ∧
      (inputFormatValid fresh.cfg (pcm 2 16 131073) = true ∧
        fresh.cfg.storageMax < capacityFor fresh.cfg (pcm 2 16 131073)) ∧
      (inputFormatValid fresh.cfg (pcm 2 16 4) = true ∧ { fresh with grants := [false] }.grantNow = false) := by decide

theorem witness_InitOutCompletes :
    let s := { streaming with grants := [true] }
    s.cfg.Legal ∧ outputFormatValid s.cfg (pcm 1024 32 0) = true ∧ (pcm 1024 32 0).frameSize = s.cfg.frameMax ∧
      s.grantNow = true := by decide

theorem witness_InitOutFailures :
    outputFormatValid fresh.cfg (pcm 0 32 4) = false ∧
      (outputFormatValid fresh.cfg (pcm 1025 32 4) = true ∧ fresh.cfg.frameMax < (pcm 1025 32 4).frameSize) ∧
      (outputFormatValid fresh.cfg (pcm 2 32 4) = true ∧ { streaming with grants := [false] }.grantNow = false) := by
  decide

/-- Each command with its response at the owner's port: `INIT_IN` granted, denied, and on a live block, `INIT_OUT`,
`RESET`, `WRITE` and `READ`; and a `READ` on an input-only block with an unread frame and on an empty one. -/
theorem witness_LifecycleTable :
    answer (exec (.initIn (some (pcm 2 16 4))) { fresh with grants := [true] }) = some (1, []) ∧
      answer (exec (.initIn (some (pcm 2 16 4))) { fresh with grants := [false] }) = some (0x20, []) ∧
      answer (exec (.initIn (some (pcm 2 16 4))) streaming) = some (0x30, []) ∧
      answer (exec (.initOut (some (pcm 2 32 4))) { keeping with grants := [true] }) = some (1, []) ∧
      answer (exec .reset keeping) = some (1, []) ∧ answer (exec (.write 1 (some [0xA4])) fresh) = some (0x40, []) ∧
      answer (exec (.read 8) fresh) = some (0x40, []) ∧ answer (exec (.read 1) inputOnly) = some (1, [0]) ∧
      answer (exec (.read 1) unconverted) = some (0x160, []) := by decide

theorem witness_LifecycleTable_input_only :
    (inputOnly.Legal ∧ inputOnly.liveStorage = true ∧ inputOnly.livePfo = false ∧ (1#32 : Word) ≠ 0#32) ∧
      unconverted.Legal ∧ unconverted.readFrameId ≠ unconverted.writeFrameId :=
  ⟨⟨inputOnly_legal, by decide, by decide, by decide⟩, unconverted_legal, by decide⟩

theorem witness_CommandsWriteOnlyTheirRegisters :
    (∃ t, exec (.initIn (some (pcm 2 16 4))) { fresh with grants := [true] } = .next t) ∧
      (∃ t, exec (.initOut (some (pcm 2 32 4))) { keeping with grants := [true] } = .next t) ∧
      (∃ t, exec (.write 1 (some [0xA4])) full = .next t) ∧ (∃ t, exec (.read 8) unconverted = .next t) ∧
      ∃ t, exec .reset keeping = .next t :=
  ⟨⟨_, rfl⟩, ⟨_, rfl⟩, ⟨_, rfl⟩, ⟨_, rfl⟩, ⟨_, rfl⟩⟩

/-- A step that runs a body from a legal state with a legal history. -/
theorem witness_StepKeepsAllocationHistory :
    (holding full (.write 1 (some [0xA4]))).Legal ∧ (holding full (.write 1 (some [0xA4]))).HistoryLegal ∧
      ∃ t, step (holding full (.write 1 (some [0xA4]))) = .next t :=
  ⟨holding_legal, by decide, ⟨_, rfl⟩⟩

theorem witness_StepKeepsLegal :
    (holding full (.write 1 (some [0xA4]))).Legal ∧ ∃ t, step (holding full (.write 1 (some [0xA4]))) = .next t :=
  ⟨holding_legal, ⟨_, rfl⟩⟩

theorem witness_WriteFailures : fresh.liveStorage = false ∧ streaming.liveStorage = true ∧ (1#32 : Word) ≠ 0#32 := by
  decide

/-- A full ring with three bytes held; one byte completes a frame. -/
theorem witness_WriteCompletes :
    full.Legal ∧ full.liveStorage = true ∧ (1#32 : Word) ≠ 0#32 ∧ ([0xA4] : List Byte).length = (1#32 : Word).toNat ∧
      full.unread = full.numFrames.toNat - 1 :=
  ⟨full_legal, by decide, by decide, by decide, by decide⟩

/-- The slot written is the last one; addresses 27 and 32 are just outside it. -/
theorem witness_WriteStoresOnlyItsSlots :
    full.Legal ∧ (∃ t, exec (.write 1 (some [0xA4])) full = .next t) ∧
      (full.held ++ [0xA4]).length / full.frameSizeIn.toNat = 1 ∧ full.slotAddr full.writeFrameId = 28 :=
  ⟨full_legal, ⟨_, rfl⟩, by decide, by decide⟩

theorem witness_WriteSplitsAnywhere :
    full.Legal ∧ full.liveStorage = true ∧ ([0xA4] : List Byte) ≠ [] ∧ ([0xB1, 0xB2] : List Byte) ≠ [] ∧
      ([0xA4] ++ [0xB1, 0xB2] : List Byte).length < 2 ^ 32 :=
  ⟨full_legal, by decide, by decide, by decide, by decide⟩

/-- The smallest ring, full, and a ring of eight that wraps. -/
theorem witness_AdvanceDiscardsTheOldest :
    let s := { streaming with numFrames := 2, writeFrameId := 1 }
    (2 ≤ s.numFrames.toNat ∧ s.writeFrameId.toNat < s.numFrames.toNat ∧ s.readFrameId.toNat < s.numFrames.toNat ∧
      s.unread = s.numFrames.toNat - 1) ∧
    2 ≤ full.numFrames.toNat ∧ full.writeFrameId.toNat + 1 = full.numFrames.toNat ∧
      full.readFrameId.toNat < full.numFrames.toNat := by decide

theorem witness_CommitStoresThenAdvances :
    full.Legal ∧ full.liveStorage = true ∧ ([1, 2, 3, 4] : List Byte).length = full.frameSizeIn.toNat ∧
      full.writeFrameId.toNat + 1 = full.numFrames.toNat :=
  ⟨full_legal, by decide, by decide, by decide⟩

theorem witness_WriteIgnoresTheOutputSide :
    SameCursors streaming inputOnly ∧ SameInput streaming inputOnly ∧ streaming.livePfo ≠ inputOnly.livePfo ∧
      inputOnly.fault = streaming.fault ∧ inputOnly.owner = streaming.owner ∧ inputOnly.ports = streaming.ports ∧
      ∃ t, exec (.write 5 (some [1, 2, 3, 4, 5])) streaming = .next t :=
  ⟨by decide, by decide, by decide, rfl, rfl, rfl, ⟨_, rfl⟩⟩

theorem witness_ReadFailures : fresh.liveStorage = false ∧ keeping.liveStorage = true := by decide

/-- V-RD19, V-RD21. -/
theorem witness_ReadFaults :
    (unconverted.liveStorage = true ∧ (8#32 : Word) ≠ 0#32 ∧ unconverted.partialBytesOut.toNat < (8#32 : Word).toNat ∧
      unconverted.readFrameId ≠ unconverted.writeFrameId ∧ unconverted.livePfo = false) ∧
    mismatched.liveStorage = true ∧ (1#32 : Word) ≠ 0#32 ∧ mismatched.partialBytesOut.toNat < (1#32 : Word).toNat ∧
      mismatched.readFrameId ≠ mismatched.writeFrameId ∧ mismatched.livePfo = true ∧
      mismatched.fmtIn.channels ≠ mismatched.fmtOut.channels := by decide

/-- V-RD18, and one byte more than is kept on an empty ring. -/
theorem witness_ReadOfAnEmptyRingIsSilence :
    (inputOnly.liveStorage = true ∧ (6#32 : Word) ≠ 0#32 ∧ inputOnly.partialBytesOut = 0#32 ∧
      inputOnly.readFrameId = inputOnly.writeFrameId) ∧
    drained.Legal ∧ drained.liveStorage = true ∧ drained.partialBytesOut.toNat < (6#32 : Word).toNat ∧
      drained.readFrameId = drained.writeFrameId ∧ drained.partialBytesOut.toNat = 5 :=
  ⟨by decide, drained_legal, by decide, by decide, by decide, by decide⟩

/-- A state and a length for each of the five outcomes: kept bytes only (`LEN = partialBytesOut`), an empty ring, a ring
that drains, whole frames only, and a frame cut in two. -/
theorem witness_ReadCompletes :
    (keeping.Legal ∧ keeping.liveStorage = true ∧ keeping.convSupported = true ∧ (5#32 : Word) ≠ 0#32 ∧
      (5#32 : Word).toNat = keeping.partialBytesOut.toNat) ∧
    (streaming.Legal ∧ streaming.liveStorage = true ∧ streaming.convSupported = true ∧ streaming.unread = 0) ∧
    (keeping.unread ≤ ((13#32 : Word).toNat - keeping.partialBytesOut.toNat) / keeping.frameSizeOut.toNat) ∧
    (twoFrames.Legal ∧ twoFrames.liveStorage = true ∧ twoFrames.convSupported = true ∧
      twoFrames.partialBytesOut = 0#32 ∧ twoFrames.unread = 2 ∧ (8#32 : Word).toNat / twoFrames.frameSizeOut.toNat = 1 ∧
      (8#32 : Word).toNat % twoFrames.frameSizeOut.toNat = 0) ∧
    (15#32 : Word).toNat / twoFrames.frameSizeOut.toNat = 1 ∧ (15#32 : Word).toNat % twoFrames.frameSizeOut.toNat ≠ 0 :=
  ⟨⟨keeping_legal, by decide, by decide, by decide, by decide⟩, ⟨streaming_legal, by decide, by decide, by decide⟩,
    by decide, ⟨twoFrames_legal, by decide, by decide, by decide, by decide, by decide, by decide⟩, by decide, by decide⟩

theorem witness_ReadStoresOnlyToPfo :
    (∃ t, exec (.read 3) twoFrames = .next t) ∧
      ((∃ t, exec (.read 4) keeping = .next t) ∧ (4#32 : Word).toNat < keeping.partialBytesOut.toNat) ∧
      (∃ t, exec (.read 4) streaming = .next t) ∧ streaming.partialBytesOut = 0#32 ∧
        streaming.readFrameId = streaming.writeFrameId :=
  ⟨⟨_, rfl⟩, ⟨⟨_, rfl⟩, by decide⟩, ⟨_, rfl⟩, by decide, by decide⟩

/-- Seven frames: as many as the ring of eight slots holds. -/
theorem witness_WriteThenReadReturnsTheFrames :
    let b : List Byte := List.replicate 28 0x5A
    streaming.Legal ∧ streaming.liveStorage = true ∧ streaming.convSupported = true ∧
      streaming.readFrameId = streaming.writeFrameId ∧ streaming.partialBytesIn = 0#32 ∧
      streaming.partialBytesOut = 0#32 ∧ 1 ≤ 7 ∧ 7 ≤ streaming.numFrames.toNat - 1 ∧
      b.length = 7 * streaming.frameSizeIn.toNat ∧ b.length < 2 ^ 32 ∧ 7 * streaming.frameSizeOut.toNat < 2 ^ 32 ∧
      streaming.Good :=
  ⟨streaming_legal, by decide, by decide, by decide, by decide, by decide, by decide, by decide, by decide, by decide,
    by decide, rfl⟩

theorem witness_WideningIsExact :
    (-32768 ≤ (-32768 : Int) ∧ (-32768 : Int) ≤ 32767) ∧ -32768 ≤ (32767 : Int) ∧
      convertSample 16 32 (-1) = convertSample 16 32 (-1) := by decide

theorem witness_FramesConvertLaneByLane :
    (pcm 2 16 4).channels = (pcm 2 32 4).channels ∧ (pcm 2 16 4).bits.toNat % 8 = 0 ∧
      (pcm 2 32 4).bits.toNat % 8 = 0 ∧ (pcm 2 16 4).bits.toNat ≤ (pcm 2 32 4).bits.toNat ∧
      ([0x64, 0, 0x9C, 0xFF] : List Byte).length = (pcm 2 16 4).frameSize ∧ 1 < (pcm 2 16 4).channels.toNat := by decide

theorem witness_StepRunsTheHeldCommand :
    (holding keeping (.read 8)).nextMove = .runBody ∧ (holding keeping (.read 8)).lock = true ∧
      (holding keeping (.read 8)).ports[0]? = some (.holding (encode (.read 8))) ∧
      decode (holding keeping (.read 8)).cfg.extMax (encode (.read 8)) = .ok (.read 8) :=
  ⟨rfl, rfl, rfl, rfl⟩

/-- The last port presents a legal and an illegal request. -/
theorem witness_PresentedRequests :
    (next (.present 2 ⟨0x0500000000000000, []⟩) streaming).nextMove = .present 2 ⟨0x0500000000000000, []⟩ ∧
      streaming.ports[2]? = some .idle ∧ decode streaming.cfg.extMax ⟨0x0500000000000000, []⟩ = .ok .reset ∧
      (next (.present 2 ⟨0x0600000000000000, []⟩) streaming).nextMove = .present 2 ⟨0x0600000000000000, []⟩ ∧
      decode streaming.cfg.extMax ⟨0x0600000000000000, []⟩ = .error .opcode ∧ DecodeError.opcode ≠ .payload :=
  ⟨rfl, rfl, rfl, rfl, rfl, by decide⟩

/-- Port 1 waits while port 0 holds the guard, and while nobody does. -/
theorem witness_TryAcquireIsTestAndSet :
    (next (.tryAcquire 1) (holding streaming .reset)).nextMove = .tryAcquire 1 ∧
      (holding streaming .reset).ports[1]? = some (.waiting (encode (.read 8))) ∧
      (holding streaming .reset).lock = true ∧ { holding streaming .reset with lock := false }.lock = false :=
  ⟨rfl, rfl, rfl, rfl⟩

theorem witness_HandOverIdlesThePort :
    let s := next (.handOver 0) { streaming with ports := [.responding ⟨1, [7]⟩, .idle, .idle] }
    s.nextMove = .handOver 0 ∧ s.ports[0]? = some (.responding ⟨1, [7]⟩) :=
  ⟨rfl, rfl⟩

/-- The row `HOLDING` to `RESPONDING` of the phase table, and a port the step does not concern. -/
theorem witness_PhasesMoveByTheTable :
    ∃ t, step (holding streaming (.read 4)) = .next t ∧
      (holding streaming (.read 4)).ports[0]? = some (.holding (encode (.read 4))) ∧
      t.ports[0]? = some (.responding ⟨1, zeros 4⟩) ∧ (holding streaming (.read 4)).ports[2]? = some .idle ∧
      t.ports[2]? = some .idle :=
  ⟨_, rfl, rfl, rfl, rfl, rfl⟩

theorem witness_EveryPathReleasesTheGuard : ∃ t, exec (.read 20) keeping = .next t := ⟨_, rfl⟩

theorem witness_OnlyBodiesWriteTheBlock :
    let s := next (.present 2 ⟨0x0500000000000000, []⟩) keeping
    (∃ t, step s = .next t) ∧ s.nextMove ≠ .runBody ∧ s.nextMove ≠ .hardReset :=
  ⟨⟨_, rfl⟩, by decide, by decide⟩

/-- A fault of `READ`: `FAULT` changes and the cause is 6. -/
theorem witness_FailuresArePrecise :
    ∃ t r, exec (.read 8) unconverted = .next t ∧ t.ports[unconverted.owner]? = some (.responding r) ∧
      r.word.getLsbD 0 = false ∧ t.fault ≠ unconverted.fault :=
  ⟨_, _, rfl, rfl, by decide, by decide⟩

theorem witness_FaultBitsAreSticky :
    (∃ t, step (holding { unconverted with fault := 2 } (.read 8)) = .next t) ∧
      (holding unconverted (.read 8)).nextMove ≠ .hardReset ∧
      (∃ t, step (next .hardReset { keeping with fault := 3 }) = .next t) ∧
      (next .hardReset keeping).nextMove = .hardReset :=
  ⟨⟨_, rfl⟩, by decide, ⟨_, rfl⟩, rfl⟩

/-- A successful `READ` on a legal state; its response is at the owner's port. -/
theorem witness_OnlyReadsReturnData :
    keeping.Legal ∧ ∃ t r, exec (.read 5) keeping = .next t ∧ t.ports[keeping.owner]? = some (.responding r) ∧
      r.word.getLsbD 0 = true :=
  ⟨keeping_legal, _, _, rfl, rfl, by decide⟩

theorem witness_ResetIsIdempotent :
    fresh.Legal ∧ fresh.liveStorage = false ∧ fresh.livePfi = false ∧ fresh.livePfo = false :=
  ⟨fresh_legal, rfl, rfl, rfl⟩

theorem witness_ResetStateValues :
    (next .hardReset keeping).nextMove = .hardReset ∧ ∃ t, step (next .hardReset keeping) = .next t :=
  ⟨rfl, _, rfl⟩

theorem witness_HardResetRestoresTheResetState :
    (next .hardReset (holding keeping (.read 8))).nextMove = .hardReset := rfl

theorem witness_StatusWindowShowsTheRegisters :
    (next (.readWindow 17) keeping).nextMove = .readWindow 17 ∧
      (next (.writeWindow 0 0xFFFFFFFF) keeping).nextMove = .writeWindow 0 0xFFFFFFFF :=
  ⟨rfl, rfl⟩

theorem witness_ResetStateIsLegal : Config.T8.Legal := by decide

theorem witness_LegalStepsNeverFault : (holding full (.write 1 (some [0xA4]))).Legal := holding_legal

theorem witness_HeldCommandsAlwaysAnswer :
    (holding full (.write 1 (some [0xA4]))).Legal ∧ (holding full (.write 1 (some [0xA4]))).lock = true ∧
      (holding full (.write 1 (some [0xA4]))).nextMove = .runBody :=
  ⟨holding_legal, rfl, rfl⟩

theorem witness_ParametersNeverChange : ∃ t, step (holding keeping (.read 8)) = .next t := ⟨_, rfl⟩

/-- A full ring and an empty one. -/
theorem witness_EqualCursorsMeanEmpty :
    (full.Legal ∧ full.liveStorage = true ∧ full.unread = full.numFrames.toNat - 1) ∧
      streaming.Legal ∧ streaming.liveStorage = true ∧ streaming.unread = 0 :=
  ⟨⟨full_legal, by decide, by decide⟩, streaming_legal, by decide, by decide⟩

theorem witness_PfiIsZeroBeyondHeldBytesAndPfoWhenNothingIsKept :
    (streaming.Legal ∧ streaming.partialBytesIn = 0#32 ∧ streaming.partialBytesOut = 0#32) ∧
      full.Legal ∧ full.partialBytesIn ≠ 0#32 ∧ full.frameSizeIn.toNat - full.partialBytesIn.toNat ≤ 3 :=
  ⟨⟨streaming_legal, by decide, by decide⟩, full_legal, by decide, by decide⟩

theorem witness_AtMostOnePortHolds :
    (holding full (.write 1 (some [0xA4]))).Legal ∧
      (holding full (.write 1 (some [0xA4]))).ports[0]? = some (.holding (encode (.write 1 (some [0xA4])))) :=
  ⟨holding_legal, rfl⟩

/-- The response to a `READ` that delivers, and to one that faults. -/
theorem witness_ResponsesTravelLowByteFirst :
    (keeping.Legal ∧ ∃ t r, exec (.read 5) keeping = .next t ∧ t.ports[keeping.owner]? = some (.responding r)) ∧
      unconverted.Legal ∧ ∃ t r, exec (.read 8) unconverted = .next t ∧
        t.ports[unconverted.owner]? = some (.responding r) :=
  ⟨⟨keeping_legal, _, _, rfl, rfl⟩, unconverted_legal, _, _, rfl, rfl⟩

/-- A `READ` that faults, to its hand-over: the run starts good and its end is not. -/
theorem witness_GoodRunsAnswerNoFault :
    let s := { unconverted with schedule := commandMoves 2 (.read 8) }
    4 ≤ s.schedule.length ∧ (∀ m ∈ s.schedule.take 4, m ≠ .hardReset) ∧ s.Good ∧ s.NoFaultAnswered ∧
      ∃ t : State, core.run 4 s = .next t ∧ ¬t.Good :=
  ⟨by decide, by decide, by decide, by decide, _, rfl, by decide⟩

/-- The last port writes one frame and the first reads it back. -/
theorem witness_RoundTripIsAGoodRun :
    let b : List Byte := [0x64, 0, 0x9C, 0xFF]
    let s := { streaming with
      schedule := commandMoves 2 (.write (BitVec.ofNat 32 b.length) (some b)) ++
        commandMoves 0 (.read (BitVec.ofNat 32 (1 * streaming.frameSizeOut.toNat))) }
    s.Legal ∧ s.liveStorage = true ∧ s.convSupported = true ∧ s.readFrameId = s.writeFrameId ∧
      s.partialBytesIn = 0#32 ∧ s.partialBytesOut = 0#32 ∧ 1 ≤ s.numFrames.toNat - 1 ∧
      b.length = 1 * s.frameSizeIn.toNat ∧ b.length < 2 ^ 32 ∧ 1 * s.frameSizeOut.toNat < 2 ^ 32 ∧ s.Quiet ∧ s.Good ∧
      2 < s.ports.length :=
  ⟨⟨by decide, by decide, by decide, by decide, by decide, by decide⟩, by decide, by decide, by decide, by decide,
    by decide, by decide, by decide, by decide, by decide, by decide, by decide, by decide⟩

end Sys2Proof.Tests
end

section
/-! What every step keeps of the environment's record: the parameters, the moves still to come and what was handed out. -/

namespace Sys2Proof.Machine

/-- The environment's record is kept, and the trace only grows (R49). -/
abbrev KeepsRecord (s t : State) : Prop := SameEnvironment s t ∧ s.trace <+: t.trace

theorem keepsRecord_of_trace_eq {s t : State} (henv : SameEnvironment s t) (htrace : t.trace = s.trace) :
    KeepsRecord s t :=
  ⟨henv, htrace ▸ List.prefix_rfl⟩

/-- Only an `INIT_*` or a `RESET` that succeeds hands something out, and it appends to the trace (R134). -/
theorem exec_keepsRecord {i : Instr} {s t : State} (h : exec i s = .next t) : KeepsRecord s t := by
  obtain ⟨c, rfl⟩ | rfl | ⟨c, rfl⟩ | ⟨d, -, rfl⟩ | ⟨d, -, rfl⟩ | ⟨len, b, u, -, hu, rfl⟩ | ⟨len, y, -, hy, rfl⟩ |
    ⟨-, rfl⟩ := exec_next h
  · exact keepsRecord_of_trace_eq ⟨rfl, rfl, rfl⟩ rfl
  · exact keepsRecord_of_trace_eq ⟨rfl, rfl, rfl⟩ rfl
  · exact keepsRecord_of_trace_eq ⟨rfl, rfl, rfl⟩ rfl
  · exact ⟨⟨rfl, rfl, rfl⟩, List.prefix_append ..⟩
  · exact ⟨⟨rfl, rfl, rfl⟩, List.prefix_append ..⟩
  · obtain ⟨-, -, -, -, -, -, henv, -, -, htrace⟩ := writeBody_frame hu
    exact keepsRecord_of_trace_eq henv htrace
  · obtain ⟨-, -, -, -, -, -, -, -, -, henv, -, -, htrace⟩ := readBody_frame hy
    exact keepsRecord_of_trace_eq henv htrace
  · exact ⟨⟨rfl, rfl, rfl⟩, List.prefix_append ..⟩

theorem applyMove_keepsRecord {m : Move} {s t : State} (h : applyMove m s = .next t) : KeepsRecord s t := by
  obtain ⟨p, req, -, h⟩ | ⟨p, -, h⟩ | ⟨i, -, -, h⟩ | ⟨p, -, h⟩ | ⟨-, rfl⟩ | ⟨n, -, rfl⟩ | ⟨n, v, -, rfl⟩ :=
    applyMove_next h
  · obtain ⟨-, ⟨i, -, rfl⟩ | ⟨e, -, -, rfl⟩⟩ := presentRequest_next h <;>
      exact keepsRecord_of_trace_eq ⟨rfl, rfl, rfl⟩ rfl
  · obtain ⟨req, -, ⟨-, rfl⟩ | ⟨-, rfl⟩⟩ := tryAcquire_next h <;>
      exact keepsRecord_of_trace_eq ⟨rfl, rfl, rfl⟩ rfl
  · exact exec_keepsRecord h
  · obtain ⟨r, -, rfl⟩ := handOver_next h
    exact ⟨⟨rfl, rfl, rfl⟩, List.prefix_append ..⟩
  · exact ⟨⟨rfl, rfl, rfl⟩, List.prefix_append ..⟩
  · exact ⟨⟨rfl, rfl, rfl⟩, List.prefix_append ..⟩
  · exact keepsRecord_of_trace_eq ⟨rfl, rfl, rfl⟩ rfl

/-- Settles O52: the move is taken from the schedule before it is applied, and no move writes the record. -/
theorem parametersNeverChange : Obligations.ParametersNeverChange := by
  intro s t h
  obtain ⟨⟨hcfg, hschedule, hmoves⟩, htrace⟩ := applyMove_keepsRecord h
  exact ⟨hcfg, hmoves, hschedule, htrace⟩

end Sys2Proof.Machine
end

section
/-! Bounds of the ring and of the scratch regions (spec/10_state.md rules R44, R45, spec/20_memory.md rules R66, R76), and
from them: the bodies of `WRITE` and `READ` run to their ends. -/

namespace Sys2Proof.Machine

/-! ### A ring that is in range, and an output side a frame can be converted for -/

/-- The block owns its input regions, the storage is exactly `numFrames` slots, and both cursors name slots. This, unlike
`State.Legal`, holds between the steps of a body. -/
structure State.RingReady (s : State) : Prop where
  liveStorage : s.liveStorage = true
  livePfi : s.livePfi = true
  frameSizeIn_pos : 0 < s.frameSizeIn.toNat
  capacity : s.capacity.toNat = s.numFrames.toNat * s.frameSizeIn.toNat
  writeFrameId_lt : s.writeFrameId.toNat < s.numFrames.toNat
  readFrameId_lt : s.readFrameId.toNat < s.numFrames.toNat

/-- The block owns `PFO`, and a converted frame has its size (R26, R175, R176). -/
structure State.ConvertReady (s : State) : Prop where
  livePfo : s.livePfo = true
  frameSizeOut_pos : 0 < s.frameSizeOut.toNat
  frameSizeOut : s.frameSizeOut.toNat = s.fmtIn.channels.toNat * (s.fmtOut.bits.toNat / 8)

theorem ne_zero_of_toNat_pos {w : Word} (h : 0 < w.toNat) : w ≠ 0#32 := by
  rintro rfl
  exact absurd h (Nat.lt_irrefl 0)

theorem Descriptor.frameSize_pos {d : Descriptor} (hch : 1 ≤ d.channels.toNat) (hbits : 8 ≤ d.bits.toNat) :
    0 < d.frameSize :=
  Nat.mul_pos hch (Nat.div_pos hbits (by decide))

theorem frameSize_pos_of_inputFormatValid {c : Config} {d : Descriptor} (h : inputFormatValid c d = true) :
    0 < d.frameSize := by
  simp only [inputFormatValid, Bool.and_eq_true, decide_eq_true_eq] at h
  obtain ⟨⟨⟨⟨-, hch⟩, hbits⟩, -⟩, -⟩ := h
  exact Descriptor.frameSize_pos hch hbits

theorem frameSize_pos_of_outputFormatValid {c : Config} {d : Descriptor} (h : outputFormatValid c d = true) :
    0 < d.frameSize := by
  simp only [outputFormatValid, Bool.and_eq_true, decide_eq_true_eq] at h
  obtain ⟨⟨⟨-, hch⟩, hbits⟩, -⟩ := h
  exact Descriptor.frameSize_pos hch hbits

section Legal

variable {s : State}

theorem State.Legal.ringReady (h : s.Legal) (hlive : s.liveStorage = true) : s.RingReady := by
  obtain ⟨hpfi, hin⟩ := h.input
  rw [if_pos hlive] at hin
  obtain ⟨hvalid, -, hsize, -, hcap, -, hnum, hw, hr, -⟩ := hin
  exact
    { liveStorage := hlive
      livePfi := hpfi.trans hlive
      frameSizeIn_pos := hsize ▸ frameSize_pos_of_inputFormatValid hvalid
      capacity := by rw [hcap, hnum, hsize, capacityFor]
      writeFrameId_lt := hw
      readFrameId_lt := hr }

theorem State.Legal.partialBytesIn_lt (h : s.Legal) (hlive : s.liveStorage = true) :
    s.partialBytesIn.toNat < s.frameSizeIn.toNat := by
  obtain ⟨-, hin⟩ := h.input
  rw [if_pos hlive] at hin
  obtain ⟨-, -, -, -, -, -, -, -, -, hlt⟩ := hin
  exact hlt

/-- Bytes are pending only in a `PFO` the block owns, and fewer than a frame has (R24). -/
theorem State.Legal.partialBytesOut_lt (h : s.Legal) (hpending : s.partialBytesOut ≠ 0#32) :
    s.livePfo = true ∧ s.partialBytesOut.toNat < s.frameSizeOut.toNat := by
  obtain ⟨hout, -⟩ := h.output
  split_ifs at hout with hlive
  · obtain ⟨-, -, -, -, hlt⟩ := hout
    exact ⟨hlive, hlt⟩
  · obtain ⟨-, hzero, -⟩ := hout
    exact absurd hzero hpending

theorem State.Legal.convertReady (h : s.Legal) (hconv : s.convSupported = true) : s.ConvertReady := by
  simp only [State.convSupported, Bool.and_eq_true, beq_iff_eq] at hconv
  obtain ⟨⟨hlive, hchannels⟩, -⟩ := hconv
  obtain ⟨hout, -⟩ := h.output
  rw [if_pos hlive] at hout
  obtain ⟨hvalid, -, hsize, -, -⟩ := hout
  exact
    { livePfo := hlive
      frameSizeOut_pos := hsize ▸ frameSize_pos_of_outputFormatValid hvalid
      frameSizeOut := by rw [hsize, hchannels, Descriptor.frameSize] }

theorem State.Legal.afterMove (h : s.Legal) : s.afterMove.Legal :=
  ⟨h.cfg, h.input, h.output, h.memory, h.guard, h.fault⟩

end Legal

section Ready

variable {s t : State}

theorem State.RingReady.numFrames_ne_zero (h : s.RingReady) : s.numFrames ≠ 0#32 :=
  ne_zero_of_toNat_pos (Nat.zero_lt_of_lt h.writeFrameId_lt)

theorem State.RingReady.of_sameInputShape (h : s.RingReady) (hshape : SameInputShape s t)
    (hw : t.writeFrameId.toNat < s.numFrames.toNat) (hr : t.readFrameId.toNat < s.numFrames.toNat) : t.RingReady := by
  obtain ⟨hsize, hnum, hcap, -, hlive, hpfi⟩ := hshape
  exact
    { liveStorage := hlive.trans h.liveStorage
      livePfi := hpfi.trans h.livePfi
      frameSizeIn_pos := hsize ▸ h.frameSizeIn_pos
      capacity := by rw [hcap, hnum, hsize, h.capacity]
      writeFrameId_lt := hnum ▸ hw
      readFrameId_lt := hnum ▸ hr }

theorem State.RingReady.of_writeFrame (h : s.RingReady) (hf : WriteFrame s t) (hc : SameCursors s t) : t.RingReady :=
  h.of_sameInputShape hf.2.1 (hc.1 ▸ h.writeFrameId_lt) (hc.2 ▸ h.readFrameId_lt)

theorem State.RingReady.of_readFrame (h : s.RingReady) (hf : ReadFrame s t)
    (hr : t.readFrameId.toNat < s.numFrames.toNat) : t.RingReady := by
  obtain ⟨hw, ⟨-, hsize, hnum, hcap, hfmt, hlive, hpfi, -, -⟩, -⟩ := hf
  exact h.of_sameInputShape ⟨hsize, hnum, hcap, hfmt, hlive, hpfi⟩ (hw ▸ h.writeFrameId_lt) hr

theorem State.ConvertReady.of_readFrame (h : s.ConvertReady) (hf : ReadFrame s t) : t.ConvertReady := by
  obtain ⟨-, ⟨-, -, -, -, hin, -⟩, hsize, hout, hlive, -⟩ := hf
  exact
    { livePfo := hlive.trans h.livePfo
      frameSizeOut_pos := hsize ▸ h.frameSizeOut_pos
      frameSizeOut := by rw [hsize, hin, hout, h.frameSizeOut] }

theorem State.RingReady.regionSize_storage (h : s.RingReady) :
    s.regionSize .storage = s.numFrames.toNat * s.frameSizeIn.toNat := by
  rw [State.regionSize, if_pos h.liveStorage, h.capacity]

theorem State.RingReady.regionSize_pfi (h : s.RingReady) : s.regionSize .pfi = s.frameSizeIn.toNat :=
  if_pos h.livePfi

theorem State.regionSize_pfo_of_live (h : s.livePfo = true) : s.regionSize .pfo = s.frameSizeOut.toNat :=
  if_pos h

/-- A slot a cursor can name lies inside the storage (R66). -/
theorem State.RingReady.slot_inside (h : s.RingReady) {i : Word} (hi : i.toNat < s.numFrames.toNat) :
    s.slotAddr i + s.frameSizeIn.toNat ≤ s.regionSize .storage := by
  rw [h.regionSize_storage, State.slotAddr, ← Nat.succ_mul]
  exact Nat.mul_le_mul_right _ hi

theorem State.RingReady.nextSlot_lt (h : s.RingReady) (i : Word) : (s.nextSlot i).toNat < s.numFrames.toNat := by
  rw [nextSlot_toNat i h.numFrames_ne_zero]
  exact Nat.mod_lt _ (Nat.zero_lt_of_lt h.writeFrameId_lt)

end Ready

/-! ### In range, a primitive answers (R13) -/

theorem memWrite_of_le {s : State} {sp : Space} {a : Nat} {bs : List Byte} (h : a + bs.length ≤ s.regionSize sp) :
    ∃ t, memWrite s sp a bs = .ok t :=
  ⟨_, memWrite_ok.2 ⟨h, rfl⟩⟩

theorem memRead_of_le {s : State} {sp : Space} {a n : Nat} (h : a + n ≤ s.regionSize sp) :
    ∃ bs, memRead s sp a n = .ok bs ∧ bs.length = n :=
  ⟨_, memRead_ok.2 ⟨h, rfl⟩, Memory.length_readBytes ..⟩

/-! ### The write path (R151, R153 to R155) -/

theorem memWrite_pfi_sameCursors {s t : State} {a : Nat} {bs : List Byte} (h : memWrite s .pfi a bs = .ok t) :
    SameCursors s t := by
  obtain ⟨-, rfl⟩ := memWrite_ok.1 h
  exact ⟨rfl, rfl⟩

/-- A frame of the input size is committed, and both cursors name slots again (R152, R153). -/
theorem commitFrame_answers {s : State} {f : List Byte} (h : s.RingReady) (hf : f.length = s.frameSizeIn.toNat) :
    ∃ t, commitFrame f s = .ok t ∧ t.RingReady := by
  have hinside := h.slot_inside h.writeFrameId_lt
  rw [← hf] at hinside
  have hok := commitFrame_ok.2 ⟨h.numFrames_ne_zero, hinside, rfl⟩
  refine ⟨_, hok, h.of_sameInputShape (commitFrame_frame hok).1.2.1 (h.nextSlot_lt _) ?_⟩
  simp only [State.advanceWrite]
  split_ifs
  · exact h.nextSlot_lt _
  · exact h.readFrameId_lt

/-- Step 1 stays inside `PFI`, and a frame it completes has the size of a slot (R151). -/
theorem completePartial_answers {b : List Byte} {s : State} (h : s.RingReady)
    (hp : s.partialBytesIn.toNat < s.frameSizeIn.toNat) :
    ∃ y, completePartial b s = .ok y ∧ y.1.RingReady := by
  rw [completePartial]
  split_ifs with hzero hneg
  · exact ⟨_, rfl, h⟩
  · omega
  · obtain ⟨s1, h1⟩ := memWrite_of_le (s := s) (sp := .pfi) (a := s.frameSizeIn.toNat - s.partialBytesIn.toNat)
      (bs := b.take (min b.length s.partialBytesIn.toNat)) (by rw [h.regionSize_pfi, List.length_take]; omega)
    have hs1 : s1.RingReady := h.of_writeFrame (memWrite_pfi_frame h1) (memWrite_pfi_sameCursors h1)
    have hsize : s1.frameSizeIn = s.frameSizeIn := (memWrite_pfi_frame h1).2.1.1
    simp only [h1, except_ok_bind]
    generalize s.partialBytesIn.toNat - min b.length s.partialBytesIn.toNat = n
    have hs2 : (s1.setPartialIn n).RingReady := hs1.of_writeFrame (setPartialIn_frame _ _) ⟨rfl, rfl⟩
    split_ifs with hfull
    · obtain ⟨f, hread, hlen⟩ := memRead_of_le (s := s1.setPartialIn n) (sp := .pfi) (a := 0)
        (n := s.frameSizeIn.toNat) (by rw [hs2.regionSize_pfi, State.setPartialIn_frameSizeIn, hsize, Nat.zero_add])
      obtain ⟨s3, hcommit, hs3⟩ := commitFrame_answers hs2 (f := f) (by
        rw [hlen, State.setPartialIn_frameSizeIn, hsize])
      have hsize3 : s3.frameSizeIn = s.frameSizeIn := (commitFrame_frame hcommit).1.2.1.1.trans hsize
      obtain ⟨s4, h4⟩ := memWrite_of_le (s := s3) (sp := .pfi) (a := 0) (bs := zeros s.frameSizeIn.toNat) (by
        rw [hs3.regionSize_pfi, hsize3, List.length_replicate, Nat.zero_add])
      simp only [hread, hcommit, h4, except_ok_bind]
      exact ⟨_, rfl, hs3.of_writeFrame (memWrite_pfi_frame h4) (memWrite_pfi_sameCursors h4)⟩
    · exact ⟨_, rfl, hs2⟩

/-- `n` frames are committed when the payload holds them (R154). -/
theorem commitWhole_answers {n : Nat} {b : List Byte} {s : State} (h : s.RingReady)
    (hn : n * s.frameSizeIn.toNat ≤ b.length) :
    ∃ y, commitWhole n b s = .ok y ∧ y.1.RingReady ∧ y.2 = b.drop (n * s.frameSizeIn.toNat) := by
  induction n generalizing b s with
  | zero => exact ⟨_, commitWhole_zero_ok, h, by simp⟩
  | succ n ih =>
    rw [Nat.succ_mul] at hn ⊢
    obtain ⟨s1, hcommit, hs1⟩ := commitFrame_answers h (f := b.take s.frameSizeIn.toNat) (by
      rw [List.length_take]; omega)
    have hsize : s1.frameSizeIn = s.frameSizeIn := (commitFrame_frame hcommit).1.2.1.1
    obtain ⟨y, hy, hready, hrest⟩ := ih (b := b.drop s.frameSizeIn.toNat) hs1 (by
      rw [hsize, List.length_drop]; omega)
    refine ⟨y, commitWhole_succ_ok.2 ⟨s1, hcommit, hy⟩, hready, ?_⟩
    rw [hrest, hsize, List.drop_drop, Nat.add_comm]

/-- Step 2 leaves less than a frame (R154). -/
theorem commitFrames_answers {b : List Byte} {s : State} (h : s.RingReady) :
    ∃ y, commitFrames b s = .ok y ∧ y.1.RingReady ∧ y.2.length < y.1.frameSizeIn.toNat := by
  obtain ⟨y, hy, hready, hrest⟩ := commitWhole_answers h (Nat.div_mul_le_self b.length s.frameSizeIn.toNat)
  refine ⟨y, commitFrames_ok.2 ⟨ne_zero_of_toNat_pos h.frameSizeIn_pos, hy⟩, hready, ?_⟩
  have hsize : y.1.frameSizeIn = s.frameSizeIn := (commitWhole_frame hy).1.2.1.1
  rw [hrest, hsize, List.length_drop, ← Nat.mod_eq_sub_div_mul]
  exact Nat.mod_lt _ h.frameSizeIn_pos

/-- A tail of at most a frame fits into `PFI` (R155). -/
theorem keepTail_answers {b : List Byte} {s : State} (h : s.RingReady) (hb : b.length ≤ s.frameSizeIn.toNat) :
    ∃ t, keepTail b s = .ok t := by
  rcases eq_or_ne b [] with hnil | hnil
  · exact ⟨s, keepTail_ok.2 (.inl ⟨hnil, rfl⟩)⟩
  · obtain ⟨s1, h1⟩ := memWrite_of_le (s := s) (sp := .pfi) (a := 0) (bs := b) (by
      rwa [h.regionSize_pfi, Nat.zero_add])
    exact ⟨_, keepTail_ok.2 (.inr ⟨hnil, s1, h1, rfl⟩)⟩

/-- The three steps of `WRITE` run to their end (R150). -/
theorem writeBody_answers {s : State} (b : List Byte) (h : s.Legal) (hlive : s.liveStorage = true) :
    ∃ t, writeBody b s = .ok t := by
  obtain ⟨x, hx, hxready⟩ := completePartial_answers (b := b) (h.ringReady hlive) (h.partialBytesIn_lt hlive)
  obtain ⟨y, hy, hyready, hlt⟩ := commitFrames_answers (b := x.2) hxready
  obtain ⟨t, ht⟩ := keepTail_answers hyready hlt.le
  exact ⟨t, writeBody_ok.2 ⟨x, y, hx, hy, ht⟩⟩

/-! ### The read path (R173, R176, R180 to R182) -/

@[simp] theorem length_convertFrame (fi fo : Descriptor) (f : List Byte) :
    (convertFrame fi fo f).length = fi.channels.toNat * (fo.bits.toNat / 8) := by
  simp [convertFrame, List.length_flatMap]

/-- Step 1 reads the pending bytes inside `PFO` (R173). -/
theorem deliverPending_answers {s : State} (n : Nat) (h : s.Legal) : ∃ y, deliverPending n s = .ok y := by
  rw [deliverPending]
  split_ifs with hzero hneg
  · exact ⟨_, rfl⟩
  · have := (h.partialBytesOut_lt hzero).2
    omega
  · obtain ⟨hlive, hlt⟩ := h.partialBytesOut_lt hzero
    have hregion := State.regionSize_pfo_of_live hlive
    obtain ⟨out, hread, -⟩ := memRead_of_le (s := s) (sp := .pfo)
      (a := s.frameSizeOut.toNat - s.partialBytesOut.toNat) (n := min n s.partialBytesOut.toNat) (by omega)
    simp only [hread, except_ok_bind]
    split_ifs with hall
    · obtain ⟨s2, h2⟩ := memWrite_of_le
        (s := s.setPartialOut (s.partialBytesOut.toNat - min n s.partialBytesOut.toNat)) (sp := .pfo) (a := 0)
        (bs := zeros s.frameSizeOut.toNat) (by
          rw [State.setPartialOut_regionSize, hregion, List.length_replicate, Nat.zero_add])
      simp only [h2, except_ok_bind]
      exact ⟨_, rfl⟩
    · exact ⟨_, rfl⟩

/-- The frame at the read cursor is converted, and the cursor names a slot again (R180). -/
theorem takeFrame_answers {s : State} (h : s.RingReady) :
    ∃ x, takeFrame s = .ok x ∧ x.1.RingReady ∧
      x.2.length = s.fmtIn.channels.toNat * (s.fmtOut.bits.toNat / 8) := by
  have hok := takeFrame_ok.2 ⟨h.numFrames_ne_zero, h.slot_inside h.readFrameId_lt, rfl⟩
  exact ⟨_, hok, h.of_readFrame (takeFrame_frame hok).1 (h.nextSlot_lt _), length_convertFrame ..⟩

/-- The loop of step 3 ends, and unless the ring drained it has counted off every frame (R180). -/
theorem takeWhole_answers {n : Nat} {s : State} {out : List Byte} {rem : Nat} (h : s.RingReady) :
    ∃ p, takeWhole n s out rem = .ok p ∧ p.state.RingReady ∧
      (p.drained = false → p.rem = rem - n * s.frameSizeOut.toNat) := by
  induction n generalizing s out rem with
  | zero => exact ⟨_, takeWhole_zero, h, fun _ => by simp⟩
  | succ n ih =>
    obtain ⟨x, hx, hready, -⟩ := takeFrame_answers h
    obtain ⟨-, -, hsize, -⟩ := (takeFrame_frame hx).1
    by_cases hmet : x.1.readFrameId = x.1.writeFrameId
    · exact ⟨_, takeWhole_succ_ok.2 ⟨x, hx, .inl ⟨hmet, rfl⟩⟩, hready, fun hd => Bool.noConfusion hd⟩
    · obtain ⟨p, hp, hpready, hrem⟩ := ih (out := out ++ x.2) (rem := rem - s.frameSizeOut.toNat) hready
      refine ⟨p, takeWhole_succ_ok.2 ⟨x, hx, .inr ⟨hmet, hp⟩⟩, hpready, fun hd => ?_⟩
      rw [hrem hd, hsize, Nat.succ_mul, Nat.sub_sub, Nat.add_comm]

theorem silentTail_answers {p : ReadProgress} (h : p.state.ConvertReady) : ∃ y, silentTail p = .ok y := by
  rcases eq_or_ne (p.rem % p.state.frameSizeOut.toNat) 0 with hwhole | hpart
  · exact ⟨_, silentTail_ok.2 (.inl ⟨hwhole, rfl⟩)⟩
  · obtain ⟨s1, h1⟩ := memWrite_of_le (s := p.state) (sp := .pfo) (a := 0) (bs := zeros p.state.frameSizeOut.toNat)
      (by rw [State.regionSize_pfo_of_live h.livePfo, List.length_replicate, Nat.zero_add])
    exact ⟨_, silentTail_ok.2 (.inr ⟨hpart, s1, h1, rfl⟩)⟩

/-- The converted frame fills `PFO` exactly, and no more than that is read back (R182). -/
theorem fractionalFrame_answers {p : ReadProgress} (hring : p.state.RingReady) (hconv : p.state.ConvertReady)
    (hrem : p.rem ≤ p.state.frameSizeOut.toNat) : ∃ y, fractionalFrame p = .ok y := by
  rcases eq_or_ne p.rem 0 with hnone | hsome
  · exact ⟨_, fractionalFrame_ok.2 (.inl ⟨hnone, rfl⟩)⟩
  · obtain ⟨x, hx, -, hlen⟩ := takeFrame_answers hring
    have hxconv := hconv.of_readFrame (takeFrame_frame hx).1
    obtain ⟨-, -, hsize, -⟩ := (takeFrame_frame hx).1
    obtain ⟨s1, h1⟩ := memWrite_of_le (s := x.1) (sp := .pfo) (a := 0) (bs := x.2) (by
      rw [State.regionSize_pfo_of_live hxconv.livePfo, hsize, hlen, hconv.frameSizeOut, Nat.zero_add])
    have hs1conv := hxconv.of_readFrame (memWrite_pfo_frame h1).1
    obtain ⟨-, -, hsize1, -⟩ := (memWrite_pfo_frame h1).1
    obtain ⟨head, hhead, -⟩ := memRead_of_le (s := s1) (sp := .pfo) (a := 0) (n := p.rem) (by
      rwa [State.regionSize_pfo_of_live hs1conv.livePfo, hsize1, hsize, Nat.zero_add])
    exact ⟨_, fractionalFrame_ok.2 (.inr ⟨hsome, x, s1, head, hx, h1, hhead, rfl⟩)⟩

theorem deliverFrames_answers {s : State} (rem : Nat) (out : List Byte) (hring : s.RingReady)
    (hconv : s.ConvertReady) : ∃ y, deliverFrames rem out s = .ok y := by
  have hsize := ne_zero_of_toNat_pos hconv.frameSizeOut_pos
  obtain ⟨p, hp, hpring, hcount⟩ := takeWhole_answers (n := rem / s.frameSizeOut.toNat) (out := out) (rem := rem) hring
  have hpconv := hconv.of_readFrame (takeWhole_frame hp).1
  cases hd : p.drained with
  | true =>
    obtain ⟨y, hy⟩ := silentTail_answers hpconv
    exact ⟨y, deliverFrames_ok.2 ⟨hsize, p, hp, .inl ⟨hd, hy⟩⟩⟩
  | false =>
    obtain ⟨-, -, hpsize, -⟩ := (takeWhole_frame hp).1
    have hrem : p.rem ≤ p.state.frameSizeOut.toNat := by
      rw [hcount hd, hpsize, ← Nat.mod_eq_sub_div_mul]
      exact (Nat.mod_lt _ hconv.frameSizeOut_pos).le
    obtain ⟨y, hy⟩ := fractionalFrame_answers hpring hpconv hrem
    exact ⟨y, deliverFrames_ok.2 ⟨hsize, p, hp, .inr ⟨hd, hy⟩⟩⟩

/-- The steps of `READ` run to their end: frames are converted only when the pre-check of R171 let them through. -/
theorem readBody_answers {s : State} {n : Nat} (h : s.Legal) (hlive : s.liveStorage = true)
    (hconv : s.mustConvert n = true → s.convSupported = true) : ∃ y, readBody n s = .ok y := by
  obtain ⟨x, hx⟩ := deliverPending_answers n h
  obtain ⟨hframe, hread⟩ := deliverPending_frame hx
  rcases Nat.lt_or_ge s.partialBytesOut.toNat n with hmore | hdone
  · by_cases hempty : x.1.readFrameId = x.1.writeFrameId
    · exact ⟨_, readBody_ok.2 ⟨x, hx, .inr (.inl ⟨hmore, hempty, rfl⟩)⟩⟩
    · have hring := h.ringReady hlive
      have hmust : s.mustConvert n = true := by
        rw [hread, hframe.1] at hempty
        simpa [State.mustConvert, hmore] using hempty
      obtain ⟨y, hy⟩ := deliverFrames_answers (n - s.partialBytesOut.toNat) x.2
        (hring.of_readFrame hframe (hread ▸ hring.readFrameId_lt)) ((h.convertReady (hconv hmust)).of_readFrame hframe)
      exact ⟨y, readBody_ok.2 ⟨x, hx, .inr (.inr ⟨hmore, hempty, hy⟩)⟩⟩
  · exact ⟨x, readBody_ok.2 ⟨x, hx, .inl ⟨hdone, rfl⟩⟩⟩

/-! ### Every command and every move -/

theorem execInitIn_answers (desc : Option Descriptor) (s : State) : ∃ t, execInitIn desc s = .next t := by
  unfold execInitIn
  split_ifs with hlive
  · exact ⟨_, rfl⟩
  · cases desc with
    | none => exact ⟨_, rfl⟩
    | some d =>
      dsimp only
      split_ifs <;> exact ⟨_, rfl⟩

theorem execInitOut_answers (desc : Option Descriptor) (s : State) : ∃ t, execInitOut desc s = .next t := by
  unfold execInitOut
  cases desc with
  | none => exact ⟨_, rfl⟩
  | some d =>
    dsimp only
    split_ifs <;> exact ⟨_, rfl⟩

theorem execWrite_answers {s : State} (len : Word) (bytes : Option (List Byte)) (h : s.Legal) :
    ∃ t, execWrite len bytes s = .next t := by
  unfold execWrite
  split_ifs with hlive hlen
  · exact ⟨_, rfl⟩
  · exact ⟨_, rfl⟩
  · cases bytes with
    | none => exact ⟨_, rfl⟩
    | some b =>
      obtain ⟨u, hu⟩ := writeBody_answers b h (Bool.eq_true_of_not_eq_false hlive)
      exact ⟨_, finish_next.2 ⟨(u, []), except_map_ok.2 ⟨u, hu, rfl⟩, rfl⟩⟩

theorem execRead_answers {s : State} (len : Word) (h : s.Legal) : ∃ t, execRead len s = .next t := by
  rw [execRead]
  split_ifs with hlive hlen hnoOut hnoConv
  · exact ⟨_, rfl⟩
  · exact ⟨_, rfl⟩
  · exact ⟨_, rfl⟩
  · exact ⟨_, rfl⟩
  · obtain ⟨y, hy⟩ := readBody_answers h (Bool.eq_true_of_not_eq_false hlive)
      fun hmust => Bool.eq_true_of_not_eq_false fun hno => hnoConv ⟨hmust, hno⟩
    exact ⟨_, finish_next.2 ⟨y, hy, rfl⟩⟩

/-- In a legal state the body of every command, with any operands, runs to an answer (R204). -/
theorem exec_answers {s : State} (i : Instr) (h : s.Legal) : ∃ t, exec i s = .next t := by
  cases i with
  | initIn desc => exact execInitIn_answers desc s
  | initOut desc => exact execInitOut_answers desc s
  | write len bytes => exact execWrite_answers len bytes h
  | read len => exact execRead_answers len h
  | reset => exact ⟨_, rfl⟩

/-- Only the body of the command that holds the guard can stop with a fault: the other moves touch no memory. -/
theorem applyMove_fault {m : Move} {s : State} {f : Fault} (h : applyMove m s = .fault f) :
    ∃ i, exec i s = .fault f := by
  cases m with
  | present p req =>
    simp only [applyMove, presentRequest] at h
    split at h
    · cases h
    · split at h <;> cases h
    · cases h
  | tryAcquire p =>
    simp only [applyMove, tryAcquire] at h
    split at h
    · cases h
    · split_ifs at h
    · cases h
  | runBody =>
    simp only [applyMove, runBody] at h
    split at h
    · exact ⟨_, h⟩
    · cases h
  | handOver p =>
    simp only [applyMove, handOver] at h
    split at h <;> cases h
  | hardReset => cases h
  | readWindow n => cases h
  | writeWindow n v => cases h

/-- Settles O50: only a command can stop, and in a legal state, whose ring and scratch regions hold every address the
bodies name, each command answers. -/
theorem legalStepsNeverFault : Obligations.LegalStepsNeverFault := by
  intro s f hlegal hstep
  obtain ⟨i, hfault⟩ := applyMove_fault hstep
  obtain ⟨t, hnext⟩ := exec_answers i hlegal.afterMove
  rw [hfault] at hnext
  cases hnext

end Sys2Proof.Machine
end

section
/-! What the decoder lets through: the descriptor of an accepted `INIT_*` is as long as its own `EXT_LEN` says
(spec/30_encoding.md rules R103, R105). -/

namespace Sys2Proof

theorem descriptorOf_wellFormed {extMax : Nat} {payload : List Byte}
    (hlen : payload.length = 16 + (descriptorOf payload).extLen.toNat)
    (hext : (descriptorOf payload).extLen.toNat ≤ extMax) : (descriptorOf payload).wellFormed extMax = true := by
  have hdrop : (descriptorOf payload).ext.length = (descriptorOf payload).extLen.toNat := by
    rw [show (descriptorOf payload).ext = payload.drop 16 from rfl, List.length_drop]
    omega
  simp [Descriptor.wellFormed, hdrop, hext]

/-- A descriptor operand is null or the record at the head of the payload, with `EXT_LEN <= EXT_MAX` (R94, R103). -/
theorem descriptorOperand_ok {extMax : Nat} {r : Request} {desc : Option Descriptor}
    (h : descriptorOperand extMax r = .ok desc) :
    desc = none ∨ (pvField r.word = true ∧ (descriptorOf r.payload).extLen.toNat ≤ extMax ∧
      desc = some (descriptorOf r.payload)) := by
  unfold descriptorOperand at h
  split_ifs at h with hnull hext
  · exact .inl (Except.ok.inj h).symm
  · exact .inr ⟨Bool.eq_true_of_not_eq_false hnull, Nat.not_lt.1 hext, (Except.ok.inj h).symm⟩

theorem descriptorOperand_wellFormed {extMax : Nat} {r : Request} {desc : Option Descriptor}
    (hlen : pvField r.word = true → r.payload.length = 16 + (descriptorOf r.payload).extLen.toNat)
    (h : descriptorOperand extMax r = .ok desc) :
    (Instr.initIn desc).wellFormed extMax = true ∧ (Instr.initOut desc).wellFormed extMax = true := by
  obtain rfl | ⟨hpv, hext, rfl⟩ := descriptorOperand_ok h
  · exact ⟨rfl, rfl⟩
  · have hwf := descriptorOf_wellFormed (hlen hpv) hext
    exact ⟨hwf, hwf⟩

theorem except_map_eq_ok {α β : Type} {x : Except DecodeError α} {f : α → β} {b : β} (h : x.map f = .ok b) :
    ∃ a, x = .ok a ∧ f a = b := by
  cases x with
  | error e => cases h
  | ok a => exact ⟨a, rfl, Except.ok.inj h⟩

/-- Every command the decoder reads has operands of the length the command word gives them (R94, R103, R105). -/
theorem decode_wellFormed {extMax : Nat} {r : Request} {i : Instr} (h : decode extMax r = .ok i) :
    i.wellFormed extMax = true := by
  unfold decode at h
  split_ifs at h with hlen
  simp only [ne_eq, not_not] at hlen
  split at h
  · cases h
  · rename_i hrow
    obtain ⟨desc, hdesc, rfl⟩ := except_map_eq_ok h
    exact (descriptorOperand_wellFormed (fun hpv => by simpa [payloadLength, hrow, hpv] using hlen) hdesc).1
  · rename_i hrow
    obtain ⟨desc, hdesc, rfl⟩ := except_map_eq_ok h
    exact (descriptorOperand_wellFormed (fun hpv => by simpa [payloadLength, hrow, hpv] using hlen) hdesc).2
  · rename_i hrow
    cases Except.ok.inj h
    cases hpv : pvField r.word with
    | false => simp [bytesOperand, hpv, Instr.wellFormed]
    | true => simpa [bytesOperand, hpv, Instr.wellFormed, payloadLength, hrow] using hlen
  · cases h
    rfl
  · cases h
    rfl

end Sys2Proof
end

section
/-! `State.Legal` is kept (spec/10_state.md rules R44, R47): the clauses of the invariant that a move does not write are
carried over, and each move restores the clause it writes. -/

namespace Sys2Proof.Machine

/-! ### The guard (R201, R203, R211) -/

section Guard

variable {s : State}

/-- Whether a port holds, after the phase of one port was set. -/
theorem holds_set_iff {ports : List Phase} {p q : Nat} {ph : Phase} (hq : q < ports.length) :
    ((ports.set p ph)[q]?.map Phase.holds = some true) ↔
      if p = q then ph.holds = true else ports[q]?.map Phase.holds = some true := by
  rw [List.getElem?_set]
  split_ifs with hpq hlt
  · simp
  · exact absurd (hpq ▸ hq) hlt
  · rfl

theorem latchLegal_set {ports : List Phase} {extMax p : Nat} {ph : Phase}
    (h : ∀ x ∈ ports, x.latchLegal extMax = true) (hph : ph.latchLegal extMax = true) :
    ∀ x ∈ ports.set p ph, x.latchLegal extMax = true := by
  intro x hx
  obtain hx | rfl := List.mem_or_eq_of_mem_set hx
  · exact h x hx
  · exact hph

/-- A port that does not hold moves to a phase in which it does not hold either. -/
theorem State.GuardLegal.setPort (h : s.GuardLegal) {p : Nat} {ph ph' : Phase} (hp : s.ports[p]? = some ph)
    (hold : ph.holds = false) (hnew : ph'.holds = false) (hlatch : ph'.latchLegal s.cfg.extMax = true) :
    (s.setPort p ph').GuardLegal := by
  obtain ⟨hlen, hholds, howner, hlegal⟩ := h
  have hset : (s.ports.set p ph').length = s.ports.length := List.length_set
  refine ⟨hset.trans hlen, fun q hq => ?_, fun hlock => (howner hlock).trans_eq hset.symm,
    latchLegal_set hlegal hlatch⟩
  have hq' : q < s.ports.length := hq.trans_eq hset
  refine (holds_set_iff hq').trans (Iff.trans ?_ (hholds q hq'))
  split_ifs with hpq
  · subst hpq
    simp [hp, hold, hnew]
  · rfl

/-- The owner answers and the guard is free: no port holds any more (R205). -/
theorem State.GuardLegal.respond (h : s.GuardLegal) (r : Response) : (s.respond r).GuardLegal := by
  obtain ⟨hlen, hholds, -, hlegal⟩ := h
  have hset : (s.ports.set s.owner (.responding r)).length = s.ports.length := List.length_set
  refine ⟨hset.trans hlen, fun q hq => ?_, fun hlock => Bool.noConfusion hlock, latchLegal_set hlegal rfl⟩
  have hq' : q < s.ports.length := hq.trans_eq hset
  refine (holds_set_iff hq').trans ?_
  split_ifs with hown
  · simp [Phase.holds]
  · simp [hholds q hq', hown]

/-- A waiting port takes the free guard: it is the only one that holds (R201). -/
theorem State.GuardLegal.acquire (h : s.GuardLegal) {p : Nat} {req : Request} (hp : s.ports[p]? = some (.waiting req))
    (hfree : s.lock = false) : (s.acquire p req).GuardLegal := by
  obtain ⟨hlen, hholds, -, hlegal⟩ := h
  have hset : (s.ports.set p (.holding req)).length = s.ports.length := List.length_set
  refine ⟨hset.trans hlen, fun q hq => ?_, fun _ => (List.getElem?_eq_some_iff.1 hp).1.trans_eq hset.symm,
    latchLegal_set hlegal ?_⟩
  · have hq' : q < s.ports.length := hq.trans_eq hset
    refine (holds_set_iff hq').trans ?_
    split_ifs with hpq
    · simp [Phase.holds, hpq]
    · simp [hholds q hq', hfree, hpq]
  · exact hlegal (.waiting req) (List.mem_of_getElem? hp)

end Guard

/-! ### Updates outside the data path -/

section Outside

variable {s : State}

theorem State.Legal.respond (h : s.Legal) (r : Response) : (s.respond r).Legal :=
  ⟨h.cfg, h.input, h.output, h.memory, h.guard.respond r, h.fault⟩

theorem State.Legal.afterDraw (h : s.Legal) : s.afterDraw.Legal :=
  ⟨h.cfg, h.input, h.output, h.memory, h.guard, h.fault⟩

theorem State.Legal.emit (h : s.Legal) (o : Output) : (s.emit o).Legal :=
  ⟨h.cfg, h.input, h.output, h.memory, h.guard, h.fault⟩

/-- Both faults set one of the two bits that exist (R33). -/
theorem setFaultBit_legal {faults : BitVec 8} (c : FaultCode) (h : faults &&& 0xFC#8 = 0#8) :
    setFaultBit faults c &&& 0xFC#8 = 0#8 := by
  have hbit : faultBit c &&& 0xFC#8 = 0#8 := by cases c <;> rfl
  rw [setFaultBit, BitVec.and_or_distrib_right, h, hbit, BitVec.or_zero]

theorem State.Legal.recordFault (h : s.Legal) (c : FaultCode) : (s.recordFault c).Legal :=
  ⟨h.cfg, h.input, h.output, h.memory, h.guard, setFaultBit_legal c h.fault⟩

theorem State.resetWith_legal {c : Config} (hc : c.Legal) : (State.resetWith c).Legal where
  cfg := hc
  input := ⟨rfl, rfl, rfl, rfl, rfl, rfl, rfl, rfl⟩
  output := ⟨⟨rfl, rfl, rfl⟩, fun h => absurd rfl h⟩
  memory := ⟨rfl, rfl, rfl, rfl, rfl, rfl, fun _ => rfl⟩
  guard := by
    have hidle : ∀ ph ∈ (State.resetWith c).ports, ph = .idle := fun ph hph => List.eq_of_mem_replicate hph
    refine ⟨List.length_replicate, fun p hp => ?_, fun h => Bool.noConfusion h, fun ph hph => ?_⟩
    · rw [List.getElem?_eq_getElem hp, hidle _ (List.getElem_mem hp)]
      simp [Phase.holds, State.resetWith]
    · rw [hidle ph hph]
      rfl
  fault := BitVec.zero_and

theorem State.Legal.hardReset (h : s.Legal) : s.hardReset.Legal :=
  have hreset := State.resetWith_legal h.cfg
  ⟨hreset.cfg, hreset.input, hreset.output, hreset.memory, hreset.guard, hreset.fault⟩

end Outside

/-! ### The lifecycle commands (R123, R127, R130) -/

section Lifecycle

variable {s : State} {d : Descriptor}

/-- A word takes a value below `2 ^ 32` as it is. -/
theorem toNat_ofNat_of_le {n m : Nat} (hn : n ≤ m) (hm : m ≤ 2 ^ 32 - 1) : (BitVec.ofNat 32 n).toNat = n := by
  rw [BitVec.toNat_ofNat]
  exact Nat.mod_eq_of_lt (by omega)

/-- The storage is cut into `BUF_SECONDS * RATE` slots (R27, R123). -/
theorem capacityFor_div_frameSize (c : Config) (hsize : 0 < d.frameSize) :
    capacityFor c d / d.frameSize = c.bufSeconds * d.rate.toNat :=
  Nat.mul_div_cancel _ hsize

/-- Without storage nothing is kept in `PFO` (R44 item 6). -/
theorem State.Legal.partialBytesOut_eq_zero (h : s.Legal) (hlive : s.liveStorage = false) :
    s.partialBytesOut = 0#32 := by
  by_contra hpending
  obtain ⟨-, hout⟩ := h.output
  exact Bool.noConfusion (hlive.symm.trans (hout hpending).1)

theorem State.Legal.commitInput (h : s.Legal) (hfree : s.liveStorage = false)
    (hvalid : inputFormatValid s.cfg d = true) (hwf : d.wellFormed s.cfg.extMax = true)
    (hframe : d.frameSize ≤ s.cfg.frameMax) (hstorage : capacityFor s.cfg d ≤ s.cfg.storageMax) :
    (s.commitInput d).Legal := by
  obtain ⟨hsec, hmax, hframeMax, -⟩ := h.cfg
  have hsize := frameSize_pos_of_inputFormatValid hvalid
  have hrate : 1 ≤ d.rate.toNat := by
    simp only [inputFormatValid, Bool.and_eq_true, decide_eq_true_eq] at hvalid
    exact hvalid.2
  have hslots := capacityFor_div_frameSize s.cfg hsize
  have hfs : (BitVec.ofNat 32 d.frameSize).toNat = d.frameSize := toNat_ofNat_of_le (hframe.trans hframeMax) hmax
  have hnum : (BitVec.ofNat 32 (capacityFor s.cfg d / d.frameSize)).toNat = s.cfg.bufSeconds * d.rate.toNat := by
    rw [toNat_ofNat_of_le ((Nat.div_le_self _ _).trans hstorage) hmax, hslots]
  have hpos : 0 < s.cfg.bufSeconds * d.rate.toNat := Nat.mul_pos (by omega) hrate
  have hnone := h.partialBytesOut_eq_zero hfree
  obtain ⟨hout, -⟩ := h.output
  obtain ⟨-, -, hpfoWf, -, -, hpfo, hzero⟩ := h.memory
  exact
    { cfg := h.cfg
      input := ⟨rfl, hvalid, hwf, hfs, hframe, toNat_ofNat_of_le hstorage hmax, hstorage, hnum, hnum ▸ hpos, hnum ▸ hpos,
        hfs ▸ hsize⟩
      output := ⟨hout, fun hpending => absurd hnone hpending⟩
      memory := ⟨rfl, rfl, hpfoWf, rfl, rfl, hpfo, hzero⟩
      guard := h.guard
      fault := h.fault }

theorem State.Legal.commitOutput (h : s.Legal) (hvalid : outputFormatValid s.cfg d = true)
    (hwf : d.wellFormed s.cfg.extMax = true) (hframe : d.frameSize ≤ s.cfg.frameMax) : (s.commitOutput d).Legal := by
  obtain ⟨-, hmax, hframeMax, -⟩ := h.cfg
  have hsize := frameSize_pos_of_outputFormatValid hvalid
  have hfs : (BitVec.ofNat 32 d.frameSize).toNat = d.frameSize := toNat_ofNat_of_le (hframe.trans hframeMax) hmax
  obtain ⟨hstorageWf, hpfiWf, -, hstorage, hpfi, -, -⟩ := h.memory
  have hinput : (s.commitOutput d).InputLegal := by
    obtain ⟨hlive, hin⟩ := h.input
    refine ⟨hlive, ?_⟩
    by_cases hstore : s.liveStorage = true
    · have hpos := Nat.zero_lt_of_lt (h.ringReady hstore).writeFrameId_lt
      rw [if_pos hstore] at hin
      obtain ⟨hin1, hin2, hin3, hin4, hin5, hin6, hin7, -, -, hpartial⟩ := hin
      exact (if_pos hstore).mpr ⟨hin1, hin2, hin3, hin4, hin5, hin6, hin7, hpos, hpos, hpartial⟩
    · rw [if_neg hstore] at hin
      obtain ⟨hin1, hin2, hin3, hin4, -, -, hfmt⟩ := hin
      exact (if_neg hstore).mpr ⟨hin1, hin2, hin3, hin4, rfl, rfl, hfmt⟩
  exact
    { cfg := h.cfg
      input := hinput
      output := ⟨⟨hvalid, hwf, hfs, hframe, hfs ▸ hsize⟩, fun hpending => absurd rfl hpending⟩
      memory := ⟨hstorageWf, hpfiWf, rfl, hstorage, hpfi, rfl, fun _ => rfl⟩
      guard := h.guard
      fault := h.fault }

theorem State.Legal.release (h : s.Legal) : s.release.Legal where
  cfg := h.cfg
  input := ⟨rfl, rfl, rfl, rfl, rfl, rfl, rfl, rfl⟩
  output := ⟨⟨rfl, rfl, rfl⟩, fun hpending => absurd rfl hpending⟩
  memory := ⟨rfl, rfl, rfl, rfl, rfl, rfl, fun _ => rfl⟩
  guard := h.guard
  fault := h.fault

end Lifecycle

end Sys2Proof.Machine
end

section
/-! What `WRITE` and `READ` keep between their steps: the memories stay canonical and inside their regions, `PFI` lists
only the bytes it holds, and `PFO` is empty when nothing is kept (spec/20_memory.md rules R68, R69). -/

namespace Sys2Proof.Machine

/-! ### The write path (R151, R153 to R155) -/

/-- The ring is in range, and so is what it stores. -/
structure State.StorageReady (s : State) : Prop where
  ring : s.RingReady
  wf : Memory.wf s.storage = true
  within : Memory.within s.capacity.toNat s.storage = true

/-- The input side as it stands between two steps of `WRITE`: fewer bytes are missing than a frame has, and `PFI` lists
only bytes it holds. -/
structure State.WriteReady (s : State) : Prop where
  storage : s.StorageReady
  partialBytesIn_lt : s.partialBytesIn.toNat < s.frameSizeIn.toNat
  pfi_wf : Memory.wf s.pfi = true
  pfi_within : Memory.within s.heldIn s.pfi = true

section Write

variable {s t : State}

theorem State.Legal.writeReady (h : s.Legal) (hlive : s.liveStorage = true) : s.WriteReady := by
  obtain ⟨hwf, hpfiWf, -, hwithin, hpfi, -, -⟩ := h.memory
  rw [State.regionSize, if_pos hlive] at hwithin
  exact ⟨⟨h.ringReady hlive, hwf, hwithin⟩, h.partialBytesIn_lt hlive, hpfiWf, hpfi⟩

theorem State.heldIn_of_zero (h : s.partialBytesIn = 0#32) : s.heldIn = 0 :=
  if_pos h

theorem State.heldIn_of_pending (h : s.partialBytesIn ≠ 0#32) :
    s.heldIn = s.frameSizeIn.toNat - s.partialBytesIn.toNat :=
  if_neg h

theorem State.heldIn_le (s : State) : s.heldIn ≤ s.frameSizeIn.toNat := by
  rw [State.heldIn]
  split_ifs <;> omega

theorem State.heldIn_congr (hpartial : t.partialBytesIn = s.partialBytesIn) (hsize : t.frameSizeIn = s.frameSizeIn) :
    t.heldIn = s.heldIn := by
  rw [State.heldIn, State.heldIn, hpartial, hsize]

/-- With no frame pending `PFI` is empty (R68). -/
theorem State.WriteReady.pfi_eq_nil (h : s.WriteReady) (hzero : s.partialBytesIn = 0#32) : s.pfi = [] :=
  Memory.eq_nil_of_zero h.pfi_wf (State.heldIn_of_zero hzero ▸ h.pfi_within) fun _ ha => absurd ha (Nat.not_lt_zero _)

theorem State.StorageReady.of_writeFrame (h : s.StorageReady) (hf : WriteFrame s t) (hc : SameCursors s t)
    (hstorage : t.storage = s.storage) : t.StorageReady := by
  obtain ⟨-, ⟨-, -, hcap, -⟩, -⟩ := id hf
  exact ⟨h.ring.of_writeFrame hf hc, hstorage ▸ h.wf, by rw [hstorage, hcap]; exact h.within⟩

theorem State.StorageReady.memWrite_pfi (h : s.StorageReady) {a : Nat} {bs : List Byte}
    (hok : memWrite s .pfi a bs = .ok t) : t.StorageReady := by
  refine h.of_writeFrame (memWrite_pfi_frame hok) (memWrite_pfi_sameCursors hok) ?_
  obtain ⟨-, rfl⟩ := memWrite_ok.1 hok
  rfl

/-- A commit stores inside the storage (R153). -/
theorem commitFrame_storageReady {f : List Byte} (h : s.StorageReady) (hok : commitFrame f s = .ok t) :
    t.StorageReady := by
  obtain ⟨⟨-, hshape, -⟩, -⟩ := commitFrame_frame hok
  obtain ⟨-, hinside, rfl⟩ := commitFrame_ok.1 hok
  rw [State.regionSize, if_pos h.ring.liveStorage] at hinside
  refine ⟨h.ring.of_sameInputShape hshape (h.ring.nextSlot_lt _) ?_, Memory.wf_writeBytes _ _ h.wf,
    Memory.within_writeBytes _ h.within hinside⟩
  simp only [State.advanceWrite]
  split_ifs
  · exact h.ring.nextSlot_lt _
  · exact h.ring.readFrameId_lt

/-- `n` commits keep the storage, and what is left is the end of the payload (R154). -/
theorem commitWhole_storageReady {n : Nat} {b : List Byte} {y : State × List Byte} (h : s.StorageReady)
    (hok : commitWhole n b s = .ok y) : y.1.StorageReady ∧ y.2 <:+ b := by
  induction n generalizing b s with
  | zero =>
    cases hok
    exact ⟨h, List.suffix_rfl⟩
  | succ n ih =>
    obtain ⟨s1, hcommit, hrest⟩ := commitWhole_succ_ok.1 hok
    obtain ⟨hready, hsuffix⟩ := ih (commitFrame_storageReady h hcommit) hrest
    exact ⟨hready, hsuffix.trans (List.drop_suffix _ _)⟩

/-- A `PFI` that lists its first `frameSizeIn - n` bytes, with `n` bytes missing, is ready (R151, R155). -/
theorem State.StorageReady.setPartialIn (h : s.StorageReady) {n : Nat} (hpos : 0 < n) (hlt : n < s.frameSizeIn.toNat)
    (hwf : Memory.wf s.pfi = true) (hwithin : Memory.within (s.frameSizeIn.toNat - n) s.pfi = true) :
    (s.setPartialIn n).WriteReady := by
  have hn : (BitVec.ofNat 32 n).toNat = n := toNat_ofNat_of_le hlt.le (by omega)
  have hheld : (s.setPartialIn n).heldIn = s.frameSizeIn.toNat - n := by
    rw [State.heldIn_of_pending (ne_zero_of_toNat_pos (hn.symm ▸ hpos)), State.setPartialIn_partialBytesIn, hn,
      State.setPartialIn_frameSizeIn]
  exact ⟨h.of_writeFrame (setPartialIn_frame _ _) ⟨rfl, rfl⟩ rfl, hn.symm ▸ hlt, hwf, hheld.symm ▸ hwithin⟩

/-- Step 1 either uses up the payload or leaves no frame pending (R151). -/
theorem completePartial_writeReady {b : List Byte} {y : State × List Byte} (h : s.WriteReady)
    (hok : completePartial b s = .ok y) : y.1.WriteReady ∧ (y.2 = [] ∨ y.1.partialBytesIn = 0#32) := by
  have hlt := h.partialBytesIn_lt
  obtain ⟨hzero, rfl⟩ | ⟨hpending, -, s1, h1, hcase⟩ := completePartial_ok hok
  · exact ⟨h, .inr hzero⟩
  · have hs1 := h.storage.memWrite_pfi h1
    have hheld := h.pfi_within
    rw [State.heldIn_of_pending hpending] at hheld
    obtain ⟨hinside, rfl⟩ := memWrite_ok.1 h1
    have hwf := Memory.wf_writeBytes (s.frameSizeIn.toNat - s.partialBytesIn.toNat)
      (b.take (min b.length s.partialBytesIn.toNat)) h.pfi_wf
    obtain ⟨hshort, rfl⟩ | ⟨-, f, s3, s4, -, hcommit, h4, rfl⟩ := hcase
    · refine ⟨hs1.setPartialIn (by omega) (show _ < s.frameSizeIn.toNat by omega) hwf ?_, .inl (List.drop_length ..)⟩
      exact Memory.within_writeBytes _ (Memory.within_mono hheld (Nat.sub_le_sub_left (Nat.sub_le _ _) _)) (by
        rw [List.length_take]
        exact (show _ ≤ s.frameSizeIn.toNat - _ by omega))
    · have hs2 := hs1.of_writeFrame (setPartialIn_frame _ 0) ⟨rfl, rfl⟩ rfl
      obtain ⟨⟨-, ⟨hsize, -⟩, -⟩, hpfi, hpartial⟩ := commitFrame_frame hcommit
      have hs4 := (commitFrame_storageReady hs2 hcommit).memWrite_pfi h4
      rw [h.storage.ring.regionSize_pfi] at hinside
      have hwithin := Memory.within_writeBytes _ (Memory.within_mono hheld (Nat.sub_le _ _)) hinside
      obtain ⟨-, rfl⟩ := memWrite_ok.1 h4
      have hempty : Memory.writeBytes s3.pfi 0 (zeros s.frameSizeIn.toNat) = [] :=
        Memory.writeBytes_zeros (hpfi.symm ▸ hwf) (hpfi.symm ▸ hwithin)
      refine ⟨⟨hs4, ?_, ?_, ?_⟩, .inr hpartial⟩
      · rw [State.setRegion_partialBytesIn, State.setRegion_frameSizeIn, hpartial, hsize]
        exact Nat.zero_lt_of_lt hlt
      · exact hempty.symm ▸ rfl
      · exact hempty.symm ▸ rfl

/-- Step 2 leaves `PFI` alone and less than a frame of the payload (R154). -/
theorem commitFrames_writeReady {b : List Byte} {y : State × List Byte} (h : s.WriteReady)
    (hok : commitFrames b s = .ok y) :
    y.1.WriteReady ∧ y.1.partialBytesIn = s.partialBytesIn ∧ y.2 <:+ b ∧ y.2.length < y.1.frameSizeIn.toNat := by
  obtain ⟨-, hwhole⟩ := commitFrames_ok.1 hok
  obtain ⟨hstorage, hsuffix⟩ := commitWhole_storageReady h.storage hwhole
  obtain ⟨⟨-, ⟨hsize, -⟩, -⟩, hpfi, hpartial⟩ := commitWhole_frame hwhole
  obtain ⟨z, hz, -, hlt⟩ := commitFrames_answers (b := b) h.storage.ring
  cases hok.symm.trans hz
  refine ⟨⟨hstorage, ?_, hpfi ▸ h.pfi_wf, ?_⟩, hpartial, hsuffix, hlt⟩
  · rw [hpartial, hsize]
    exact h.partialBytesIn_lt
  · rw [State.heldIn_congr hpartial hsize, hpfi]
    exact h.pfi_within

/-- Step 3 keeps a tail of less than a frame in an empty `PFI` (R155). -/
theorem keepTail_writeReady {b : List Byte} (h : s.WriteReady) (hlt : b.length < s.frameSizeIn.toNat)
    (hfree : b = [] ∨ s.partialBytesIn = 0#32) (hok : keepTail b s = .ok t) : t.WriteReady := by
  obtain ⟨-, rfl⟩ | ⟨hne, s1, h1, rfl⟩ := keepTail_ok.1 hok
  · exact h
  · have hempty := h.pfi_eq_nil (hfree.resolve_left hne)
    have hpos := List.length_pos_iff.2 hne
    have hs1 := h.storage.memWrite_pfi h1
    obtain ⟨-, rfl⟩ := memWrite_ok.1 h1
    refine hs1.setPartialIn (by omega) (show _ < s.frameSizeIn.toNat by omega) (Memory.wf_writeBytes _ _ h.pfi_wf) ?_
    rw [State.region_pfi, hempty]
    exact Memory.within_writeBytes _ rfl (show _ ≤ s.frameSizeIn.toNat - _ by omega)

theorem writeBody_writeReady {b : List Byte} (h : s.WriteReady) (hok : writeBody b s = .ok t) : t.WriteReady := by
  obtain ⟨x, y, hx, hy, ht⟩ := writeBody_ok.1 hok
  obtain ⟨hxready, hdone⟩ := completePartial_writeReady h hx
  obtain ⟨hyready, hpartial, hsuffix, hlt⟩ := commitFrames_writeReady hxready hy
  refine keepTail_writeReady hyready hlt ?_ ht
  obtain hnil | hzero := hdone
  · exact .inl (List.suffix_nil.1 (hnil ▸ hsuffix))
  · exact .inr (hpartial.trans hzero)

end Write

/-! ### The read path (R173, R180 to R182) -/

/-- The output side as it stands between two steps of `READ`: bytes are pending only for formats that convert, fewer than
a frame has, and `PFO` is empty when none is. -/
structure State.ReadReady (s : State) : Prop where
  ring : s.RingReady
  pfo_wf : Memory.wf s.pfo = true
  pfo_within : Memory.within (s.regionSize .pfo) s.pfo = true
  empty : s.partialBytesOut = 0#32 → s.pfo = []
  pending : s.partialBytesOut ≠ 0#32 → s.convSupported = true ∧ s.partialBytesOut.toNat < s.frameSizeOut.toNat

section Read

variable {s t : State}

theorem State.Legal.readReady (h : s.Legal) (hlive : s.liveStorage = true) : s.ReadReady := by
  obtain ⟨-, -, hwf, -, -, hwithin, hempty⟩ := h.memory
  obtain ⟨-, hconv⟩ := h.output
  exact ⟨h.ringReady hlive, hwf, hwithin, hempty, fun hp => ⟨(hconv hp).2, (h.partialBytesOut_lt hp).2⟩⟩

theorem ReadFrame.convSupported (hf : ReadFrame s t) : t.convSupported = s.convSupported := by
  obtain ⟨-, ⟨-, -, -, -, hfmtIn, -⟩, -, hfmtOut, hlive, -, -, -, -, ⟨hcfg, -⟩, -⟩ := hf
  rw [State.convSupported, State.convSupported, hfmtIn, hfmtOut, hlive, hcfg]

theorem ReadFrame.frameSizeOut (hf : ReadFrame s t) : t.frameSizeOut = s.frameSizeOut := by
  obtain ⟨-, -, hsize, -⟩ := hf
  exact hsize

theorem ReadFrame.numFrames (hf : ReadFrame s t) : t.numFrames = s.numFrames := by
  obtain ⟨-, ⟨-, -, hnum, -⟩, -⟩ := hf
  exact hnum

theorem ReadFrame.regionSize_pfo (hf : ReadFrame s t) : t.regionSize .pfo = s.regionSize .pfo := by
  obtain ⟨-, -, hsize, -, hlive, -⟩ := hf
  rw [State.regionSize, State.regionSize, hsize, hlive]

theorem State.livePfo_of_convSupported (h : s.convSupported = true) : s.livePfo = true := by
  simp only [State.convSupported, Bool.and_eq_true] at h
  exact h.1.1

theorem State.ReadReady.of_readFrame (h : s.ReadReady) (hf : ReadFrame s t)
    (hr : t.readFrameId.toNat < s.numFrames.toNat) (hpfo : t.pfo = s.pfo)
    (hpartial : t.partialBytesOut = s.partialBytesOut) : t.ReadReady where
  ring := h.ring.of_readFrame hf hr
  pfo_wf := hpfo ▸ h.pfo_wf
  pfo_within := by
    rw [hf.regionSize_pfo, hpfo]
    exact h.pfo_within
  empty := fun hzero => hpfo.trans (h.empty (hpartial.symm.trans hzero))
  pending := by
    rw [hf.convSupported, hpartial, hf.frameSizeOut]
    exact h.pending

/-- Some bytes of a frame in `PFO` stay pending (R173, R181, R182). -/
theorem setPartialOut_readReady {n : Nat} (hring : s.RingReady) (hwf : Memory.wf s.pfo = true)
    (hwithin : Memory.within (s.regionSize .pfo) s.pfo = true) (hconv : s.convSupported = true) (hpos : 0 < n)
    (hlt : n < s.frameSizeOut.toNat) : (s.setPartialOut n).ReadReady :=
  have hn : (BitVec.ofNat 32 n).toNat = n := toNat_ofNat_of_le hlt.le (by omega)
  { ring := hring.of_readFrame (setPartialOut_frame s n) hring.readFrameId_lt
    pfo_wf := hwf
    pfo_within := (State.setPartialOut_regionSize s n .pfo).symm ▸ hwithin
    empty := fun hzero => absurd hzero (ne_zero_of_toNat_pos (hn.symm ▸ hpos))
    pending := fun _ => ⟨hconv, hn.symm ▸ hlt⟩ }

theorem deliverPending_readReady {n : Nat} {y : State × List Byte} (h : s.ReadReady)
    (hok : deliverPending n s = .ok y) : y.1.ReadReady := by
  obtain ⟨-, rfl⟩ | ⟨hpending, -, out, -, ⟨hmore, rfl⟩ | ⟨-, s2, h2, rfl⟩⟩ := deliverPending_ok hok
  · exact h
  · obtain ⟨hconv, hlt⟩ := h.pending hpending
    exact setPartialOut_readReady h.ring h.pfo_wf h.pfo_within hconv (by omega) (by omega)
  · obtain ⟨hconv, -⟩ := h.pending hpending
    obtain ⟨hf, hread⟩ := deliverPending_frame hok
    obtain ⟨-, rfl⟩ := memWrite_ok.1 h2
    have hwithin := h.pfo_within
    rw [State.regionSize_pfo_of_live (State.livePfo_of_convSupported hconv)] at hwithin
    have hempty : Memory.writeBytes s.pfo 0 (zeros s.frameSizeOut.toNat) = [] :=
      Memory.writeBytes_zeros h.pfo_wf hwithin
    exact ⟨h.ring.of_readFrame hf (hread ▸ h.ring.readFrameId_lt), hempty.symm ▸ rfl, hempty.symm ▸ rfl,
      fun _ => hempty, fun hp => absurd rfl hp⟩

theorem takeFrame_readReady {y : State × List Byte} (h : s.ReadReady) (hok : takeFrame s = .ok y) : y.1.ReadReady := by
  obtain ⟨hf, hpfo, hpartial⟩ := takeFrame_frame hok
  refine h.of_readFrame hf ?_ hpfo hpartial
  obtain ⟨-, -, rfl⟩ := takeFrame_ok.1 hok
  exact h.ring.nextSlot_lt _

theorem takeWhole_readReady {n : Nat} {out : List Byte} {rem : Nat} {p : ReadProgress} (h : s.ReadReady)
    (hok : takeWhole n s out rem = .ok p) : p.state.ReadReady := by
  obtain ⟨hf, hpfo, hpartial⟩ := takeWhole_frame hok
  obtain ⟨q, hq, hring, -⟩ := takeWhole_answers (n := n) (out := out) (rem := rem) h.ring
  cases hok.symm.trans hq
  exact h.of_readFrame hf (hf.numFrames ▸ hring.readFrameId_lt) hpfo hpartial

/-- The silent tail that is kept is an empty `PFO` (R181). -/
theorem silentTail_readReady {p : ReadProgress} {y : State × List Byte} (h : p.state.ReadReady)
    (hsize : 0 < p.state.frameSizeOut.toNat) (hconv : p.state.convSupported = true) (hok : silentTail p = .ok y) :
    y.1.ReadReady := by
  obtain ⟨-, rfl⟩ | ⟨hpart, s1, h1, rfl⟩ := silentTail_ok.1 hok
  · exact h
  · obtain ⟨hf, -⟩ := memWrite_pfo_frame h1
    have hmod := Nat.mod_lt p.rem hsize
    obtain ⟨hinside, rfl⟩ := memWrite_ok.1 h1
    exact setPartialOut_readReady (h.ring.of_readFrame hf h.ring.readFrameId_lt) (Memory.wf_writeBytes _ _ h.pfo_wf)
      (Memory.within_writeBytes _ h.pfo_within hinside) hconv (by omega) (show _ < p.state.frameSizeOut.toNat by omega)

/-- The frame whose head is delivered stays in `PFO` (R182). -/
theorem fractionalFrame_readReady {p : ReadProgress} {y : State × List Byte} (h : p.state.ReadReady)
    (hrem : p.rem < p.state.frameSizeOut.toNat) (hconv : p.state.convSupported = true)
    (hok : fractionalFrame p = .ok y) : y.1.ReadReady := by
  obtain ⟨-, rfl⟩ | ⟨hsome, x, s1, head, hx, h1, -, rfl⟩ := fractionalFrame_ok.1 hok
  · exact h
  · have hxready := takeFrame_readReady h hx
    obtain ⟨hxframe, -⟩ := takeFrame_frame hx
    obtain ⟨hf, -⟩ := memWrite_pfo_frame h1
    obtain ⟨hinside, rfl⟩ := memWrite_ok.1 h1
    exact setPartialOut_readReady (hxready.ring.of_readFrame hf hxready.ring.readFrameId_lt)
      (Memory.wf_writeBytes _ _ hxready.pfo_wf) (Memory.within_writeBytes _ hxready.pfo_within hinside)
      (hxframe.convSupported.trans hconv) (by omega) (show _ < x.1.frameSizeOut.toNat by
        rw [hxframe.frameSizeOut]
        omega)

theorem deliverFrames_readReady {rem : Nat} {out : List Byte} {y : State × List Byte} (h : s.ReadReady)
    (hconvert : s.ConvertReady) (hconv : s.convSupported = true) (hok : deliverFrames rem out s = .ok y) :
    y.1.ReadReady := by
  obtain ⟨-, p, hp, hcase⟩ := deliverFrames_ok.1 hok
  have hpready := takeWhole_readReady h hp
  obtain ⟨hf, -⟩ := takeWhole_frame hp
  have hpconv := hf.convSupported.trans hconv
  obtain ⟨-, htail⟩ | ⟨hd, hfrac⟩ := hcase
  · exact silentTail_readReady hpready (hf.frameSizeOut ▸ hconvert.frameSizeOut_pos) hpconv htail
  · obtain ⟨q, hq, -, hcount⟩ := takeWhole_answers (n := rem / s.frameSizeOut.toNat) (out := out) (rem := rem) h.ring
    cases hp.symm.trans hq
    refine fractionalFrame_readReady hpready ?_ hpconv hfrac
    rw [hcount hd, hf.frameSizeOut, ← Nat.mod_eq_sub_div_mul]
    exact Nat.mod_lt _ hconvert.frameSizeOut_pos

/-- Frames are converted only when the pre-check of R171 let them through, so whatever `READ` keeps is kept for formats
that convert. -/
theorem readBody_readReady {n : Nat} {y : State × List Byte} (h : s.Legal) (hlive : s.liveStorage = true)
    (hconv : s.mustConvert n = true → s.convSupported = true) (hok : readBody n s = .ok y) : y.1.ReadReady := by
  obtain ⟨x, hx, hcase⟩ := readBody_ok.1 hok
  have hxready := deliverPending_readReady (h.readReady hlive) hx
  obtain ⟨-, rfl⟩ | ⟨-, -, rfl⟩ | ⟨hmore, hunread, hd⟩ := hcase
  · exact hxready
  · exact hxready
  · obtain ⟨hf, hread⟩ := deliverPending_frame hx
    have hmust : s.mustConvert n = true := by
      rw [hread, hf.1] at hunread
      simpa [State.mustConvert, hmore] using hunread
    exact deliverFrames_readReady hxready ((h.convertReady (hconv hmust)).of_readFrame hf)
      (hf.convSupported.trans (hconv hmust)) hd

end Read

/-! ### Between the commands the invariant stands again -/

section Commands

variable {s t : State}

/-- The sizes and formats are those of a legal state, so only the cursors and `partialBytesIn` have to be in range. -/
theorem State.Legal.inputLegal_of_ringReady (h : s.Legal) (hcfg : t.cfg = s.cfg) (hshape : SameInputShape s t)
    (hring : t.RingReady) (hpartial : t.partialBytesIn.toNat < t.frameSizeIn.toNat) : t.InputLegal := by
  obtain ⟨hsizeIn, hnum, hcap, hfmt, hlive, -⟩ := hshape
  obtain ⟨-, hin⟩ := h.input
  rw [if_pos (hlive.symm.trans hring.liveStorage)] at hin
  obtain ⟨hvalid, hwf, hsize, hframe, hcapacity, hstorage, hframes, -⟩ := hin
  refine ⟨hring.livePfi.trans hring.liveStorage.symm, ?_⟩
  rw [if_pos hring.liveStorage, hcfg, hfmt]
  exact ⟨hvalid, hwf, hsizeIn ▸ hsize, hframe, hcap ▸ hcapacity, hstorage, hnum ▸ hframes, hring.writeFrameId_lt,
    hring.readFrameId_lt, hpartial⟩

theorem State.GuardLegal.of_sameOutside (h : s.GuardLegal) (hf : SameOutside s t) : t.GuardLegal := by
  obtain ⟨hlock, howner, hports, -, ⟨hcfg, -⟩, -⟩ := hf
  simpa only [State.GuardLegal, hlock, howner, hports, hcfg] using h

/-- What the steps of `READ` leave pending is less than a frame of a `PFO` the block owns (R44 items 4 to 6). -/
theorem State.Legal.outputLegal_of_readReady (h : s.Legal) (hf : ReadFrame s t) (hready : t.ReadReady) :
    t.OutputLegal := by
  obtain ⟨-, -, hsizeOut, hfmtOut, hlivePfo, -, -, -, -, ⟨hcfg, -⟩, -⟩ := hf
  obtain ⟨hout, -⟩ := h.output
  rw [← hlivePfo] at hout
  refine ⟨?_, fun hp => ⟨hready.ring.liveStorage, (hready.pending hp).1⟩⟩
  split_ifs at hout ⊢ with hlive
  · obtain ⟨hvalid, hwf, hsize, hframe, hlt⟩ := hout
    rw [hcfg, hfmtOut]
    refine ⟨hvalid, hwf, hsizeOut ▸ hsize, hframe, ?_⟩
    by_cases hp : t.partialBytesOut = 0#32
    · rw [hp, hsizeOut]
      exact Nat.zero_lt_of_lt hlt
    · exact (hready.pending hp).2
  · obtain ⟨hsize, -, hfmt⟩ := hout
    have hnone : t.partialBytesOut = 0#32 := by
      by_contra hp
      exact hlive (State.livePfo_of_convSupported (hready.pending hp).1)
    exact ⟨hsizeOut.trans hsize, hnone, hfmtOut.trans hfmt⟩

theorem State.Legal.of_writeFrame (h : s.Legal) (hf : WriteFrame s t) (hready : t.WriteReady) : t.Legal := by
  obtain ⟨⟨hpartialOut, hsizeOut, hfmtOut, hlivePfo, hpfo⟩, hshape, houtside⟩ := hf
  obtain ⟨-, -, -, hfmtIn, hlive, -⟩ := id hshape
  obtain ⟨-, -, -, hfault, ⟨hcfg, -⟩, -⟩ := id houtside
  obtain ⟨-, -, hpfoWf, -, -, hpfoWithin, hempty⟩ := h.memory
  have hregion : t.regionSize .storage = t.capacity.toNat := if_pos hready.storage.ring.liveStorage
  have hregionPfo : t.regionSize .pfo = s.regionSize .pfo := by
    rw [State.regionSize, State.regionSize, hsizeOut, hlivePfo]
  exact
    { cfg := hcfg ▸ h.cfg
      input := h.inputLegal_of_ringReady hcfg hshape hready.storage.ring hready.partialBytesIn_lt
      output := by
        simpa only [State.OutputLegal, State.convSupported, hpartialOut, hsizeOut, hfmtOut, hlivePfo, hcfg, hfmtIn,
          hlive] using h.output
      memory := by
        rw [State.MemoryLegal, hregion, hregionPfo, hpfo, hpartialOut]
        exact ⟨hready.storage.wf, hready.pfi_wf, hpfoWf, hready.storage.within, hready.pfi_within, hpfoWithin, hempty⟩
      guard := h.guard.of_sameOutside houtside
      fault := by simpa only [State.FaultLegal, hfault] using h.fault }

theorem State.Legal.of_readFrame (h : s.Legal) (hf : ReadFrame s t) (hready : t.ReadReady) : t.Legal := by
  obtain ⟨-, ⟨hpartialIn, hsizeIn, hnum, hcap, hfmtIn, hlive, hlivePfi, hstorage, hpfi⟩, -, -, -, houtside⟩ := id hf
  obtain ⟨-, -, -, hfault, ⟨hcfg, -⟩, -⟩ := id houtside
  obtain ⟨hstorageWf, hpfiWf, -, hstorageWithin, hpfiWithin, -, -⟩ := h.memory
  have hpartial := h.partialBytesIn_lt (hlive.symm.trans hready.ring.liveStorage)
  have hregion : t.regionSize .storage = s.regionSize .storage := by
    rw [State.regionSize, State.regionSize, hlive, hcap]
  have hheld : t.heldIn = s.heldIn := State.heldIn_congr hpartialIn hsizeIn
  rw [← hpartialIn, ← hsizeIn] at hpartial
  exact
    { cfg := hcfg ▸ h.cfg
      input := h.inputLegal_of_ringReady hcfg ⟨hsizeIn, hnum, hcap, hfmtIn, hlive, hlivePfi⟩ hready.ring hpartial
      output := h.outputLegal_of_readReady hf hready
      memory := by
        rw [State.MemoryLegal, hregion, hheld, hstorage, hpfi]
        exact ⟨hstorageWf, hpfiWf, hready.pfo_wf, hstorageWithin, hpfiWithin, hready.pfo_within, hready.empty⟩
      guard := h.guard.of_sameOutside houtside
      fault := by simpa only [State.FaultLegal, hfault] using h.fault }

/-- Every command with operands a legal request can carry keeps the invariant. -/
theorem exec_legal {i : Instr} (h : s.Legal) (hwf : i.wellFormed s.cfg.extMax = true) (hstep : exec i s = .next t) :
    t.Legal := by
  cases i with
  | initIn desc =>
    obtain ⟨c, rfl⟩ | rfl | ⟨d, rfl, hfree, hvalid, hframe, hstorage, -, rfl⟩ := execInitIn_next hstep
    · exact h.respond _
    · exact h.afterDraw.respond _
    · exact (h.afterDraw.commitInput hfree hvalid hwf hframe hstorage).respond _
  | initOut desc =>
    obtain ⟨c, rfl⟩ | rfl | ⟨d, rfl, hvalid, hframe, -, rfl⟩ := execInitOut_next hstep
    · exact h.respond _
    · exact h.afterDraw.respond _
    · exact (h.afterDraw.commitOutput hvalid hwf hframe).respond _
  | write len bytes =>
    obtain ⟨c, rfl⟩ | ⟨hlive, -, b, u, rfl, hu, rfl⟩ := execWrite_next hstep
    · exact h.respond _
    · exact (h.of_writeFrame (writeBody_frame hu) (writeBody_writeReady (h.writeReady hlive) hu)).respond _
  | read len =>
    obtain ⟨c, rfl⟩ | ⟨c, rfl⟩ | ⟨hlive, -, hconv, y, hy, rfl⟩ := execRead_next hstep
    · exact h.respond _
    · exact (h.recordFault c).respond _
    · exact (h.of_readFrame (readBody_frame hy)
        (readBody_readReady h hlive (fun hmust => (hconv hmust).2) hy)).respond _
  | reset =>
    cases hstep
    exact h.release.respond _

end Commands

/-! ### Every move -/

section Moves

variable {s t : State} {p : Nat}

theorem State.Legal.setPort (h : s.Legal) {ph ph' : Phase} (hp : s.ports[p]? = some ph) (hold : ph.holds = false)
    (hnew : ph'.holds = false) (hlatch : ph'.latchLegal s.cfg.extMax = true) : (s.setPort p ph').Legal :=
  ⟨h.cfg, h.input, h.output, h.memory, h.guard.setPort hp hold hnew hlatch, h.fault⟩

/-- A request is latched only when it decodes (R211). -/
theorem presentRequest_legal {req : Request} (h : s.Legal) (hstep : presentRequest p req s = .next t) : t.Legal := by
  obtain ⟨hp, ⟨i, hi, rfl⟩ | ⟨e, -, -, rfl⟩⟩ := presentRequest_next hstep
  · exact h.setPort hp rfl rfl (by simp [Phase.latchLegal, hi, Except.toOption])
  · exact h.setPort hp rfl rfl rfl

theorem tryAcquire_legal (h : s.Legal) (hstep : tryAcquire p s = .next t) : t.Legal := by
  obtain ⟨req, hp, ⟨-, rfl⟩ | ⟨hfree, rfl⟩⟩ := tryAcquire_next hstep
  · exact h
  · exact ⟨h.cfg, h.input, h.output, h.memory, h.guard.acquire hp hfree, h.fault⟩

theorem handOver_legal (h : s.Legal) (hstep : handOver p s = .next t) : t.Legal := by
  obtain ⟨r, hp, rfl⟩ := handOver_next hstep
  exact (h.setPort hp rfl rfl rfl).emit _

theorem applyMove_legal {m : Move} (h : s.Legal) (hstep : applyMove m s = .next t) : t.Legal := by
  obtain ⟨p, req, -, hm⟩ | ⟨p, -, hm⟩ | ⟨i, -, hfetch, hm⟩ | ⟨p, -, hm⟩ | ⟨-, rfl⟩ | ⟨n, -, rfl⟩ | ⟨n, v, -, rfl⟩ :=
    applyMove_next hstep
  · exact presentRequest_legal h hm
  · exact tryAcquire_legal h hm
  · obtain ⟨req, -, hdecode⟩ := fetch_ok.1 hfetch
    exact exec_legal h (decode_wellFormed hdecode) hm
  · exact handOver_legal h hm
  · exact h.hardReset
  · exact h.emit _
  · exact h

/-- Settles O48: the move is taken from the schedule, which the invariant does not read, and each move keeps it. -/
theorem stepKeepsLegal : Obligations.StepKeepsLegal :=
  fun _ _ h hstep => applyMove_legal h.afterMove hstep

end Moves

end Sys2Proof.Machine
end

section
/-! Which `FAULT` bits a step can clear, and what each command leaves alone (spec/10_state.md rules R29, R33,
spec/60_exceptions.md rule R222). -/

namespace Sys2Proof.Machine

/-! ### `FAULT` only gains bits, but for hardware reset (R33, R222) -/

/-- `FAULT` is as it was, or a fault set its bit. -/
abbrev FaultGrows (s t : State) : Prop := t.fault = s.fault ∨ ∃ c, t.fault = setFaultBit s.fault c

theorem exec_faultGrows {i : Instr} {s t : State} (h : exec i s = .next t) : FaultGrows s t := by
  obtain ⟨c, rfl⟩ | rfl | ⟨c, rfl⟩ | ⟨d, -, rfl⟩ | ⟨d, -, rfl⟩ | ⟨len, b, u, -, hu, rfl⟩ | ⟨len, y, -, hy, rfl⟩ |
    ⟨-, rfl⟩ := exec_next h
  · exact .inl rfl
  · exact .inl rfl
  · exact .inr ⟨c, rfl⟩
  · exact .inl rfl
  · exact .inl rfl
  · obtain ⟨-, -, -, -, -, hfault, -⟩ := writeBody_frame hu
    exact .inl hfault
  · obtain ⟨-, -, -, -, -, -, -, -, hfault, -⟩ := readBody_frame hy
    exact .inl hfault
  · exact .inl rfl

theorem applyMove_faultGrows {m : Move} {s t : State} (h : applyMove m s = .next t) (hm : m ≠ .hardReset) :
    FaultGrows s t := by
  obtain ⟨p, req, -, h⟩ | ⟨p, -, h⟩ | ⟨i, -, -, h⟩ | ⟨p, -, h⟩ | ⟨hreset, -⟩ | ⟨n, -, rfl⟩ | ⟨n, v, -, rfl⟩ :=
    applyMove_next h
  · obtain ⟨-, ⟨i, -, rfl⟩ | ⟨e, -, -, rfl⟩⟩ := presentRequest_next h <;> exact .inl rfl
  · obtain ⟨req, -, ⟨-, rfl⟩ | ⟨-, rfl⟩⟩ := tryAcquire_next h <;> exact .inl rfl
  · exact exec_faultGrows h
  · obtain ⟨r, -, rfl⟩ := handOver_next h
    exact .inl rfl
  · exact absurd hreset hm
  · exact .inl rfl
  · exact .inl rfl

/-- A bit that is set stays set when another is (R33). -/
theorem and_setFaultBit (faults : BitVec 8) (c : FaultCode) : faults &&& setFaultBit faults c = faults := by
  apply BitVec.eq_of_getLsbD_eq
  intro j _
  rw [setFaultBit, BitVec.getLsbD_and, BitVec.getLsbD_or]
  cases faults.getLsbD j <;> rfl

/-- A step that takes a hardware reset ends in the reset state, with the environment's own choices kept (R240). -/
theorem step_hardReset {s t : State} (hmove : s.nextMove = .hardReset) (h : step s = .next t) :
    t = s.afterMove.hardReset := by
  rw [step, hmove] at h
  exact (Host.Outcome.next.inj h).symm

/-- Settles O43: outside hardware reset `FAULT` is only written by `raise Fault`, which keeps the bits that are set. -/
theorem faultBitsAreSticky : Obligations.FaultBitsAreSticky := by
  refine ⟨fun s t h hmove => ?_, fun s t h hmove => ?_⟩
  · obtain hsame | ⟨c, hset⟩ := applyMove_faultGrows h hmove
    · rw [hsame]
      exact BitVec.and_self
    · rw [hset]
      exact and_setFaultBit s.fault c
  · rw [step_hardReset hmove h, State.hardReset_fault]

/-! ### The frame of each command (R29) -/

theorem execInitIn_frame {desc : Option Descriptor} {s t : State} (h : execInitIn desc s = .next t) :
    SameOutput s t ∧ t.fault = s.fault := by
  obtain ⟨c, rfl⟩ | rfl | ⟨d, -, -, -, -, -, -, rfl⟩ := execInitIn_next h <;> exact ⟨⟨rfl, rfl, rfl, rfl, rfl⟩, rfl⟩

theorem execInitOut_frame {desc : Option Descriptor} {s t : State} (h : execInitOut desc s = .next t) :
    SameInput s t ∧ t.fault = s.fault := by
  obtain ⟨c, rfl⟩ | rfl | ⟨d, -, -, -, -, rfl⟩ := execInitOut_next h <;>
    exact ⟨⟨rfl, rfl, rfl, rfl, rfl, rfl, rfl, rfl, rfl⟩, rfl⟩

theorem execWrite_frame {len : Word} {bytes : Option (List Byte)} {s t : State} (h : execWrite len bytes s = .next t) :
    SameOutput s t ∧ SameInputShape s t ∧ t.fault = s.fault ∧ NoTraffic s t := by
  obtain ⟨c, rfl⟩ | ⟨-, -, b, u, -, hu, rfl⟩ := execWrite_next h
  · obtain ⟨hout, hshape, -⟩ := WriteFrame.refl s
    exact ⟨hout, hshape, rfl, rfl, rfl, rfl⟩
  · obtain ⟨hout, hshape, -, -, -, hfault, -, htraffic⟩ := writeBody_frame hu
    exact ⟨hout, hshape, hfault, htraffic⟩

theorem execRead_frame {len : Word} {s t : State} (h : execRead len s = .next t) :
    SameInput s t ∧ t.writeFrameId = s.writeFrameId ∧ t.frameSizeOut = s.frameSizeOut ∧ t.fmtOut = s.fmtOut ∧
      t.livePfo = s.livePfo ∧ NoTraffic s t := by
  obtain ⟨c, rfl⟩ | ⟨c, rfl⟩ | ⟨-, -, -, y, hy, rfl⟩ := execRead_next h
  · obtain ⟨hw, hin, hsize, hfmt, hlive, -⟩ := ReadFrame.refl s
    exact ⟨hin, hw, hsize, hfmt, hlive, rfl, rfl, rfl⟩
  · obtain ⟨hw, hin, hsize, hfmt, hlive, -⟩ := ReadFrame.refl s
    exact ⟨hin, hw, hsize, hfmt, hlive, rfl, rfl, rfl⟩
  · obtain ⟨hw, hin, hsize, hfmt, hlive, -, -, -, -, -, htraffic⟩ := readBody_frame hy
    exact ⟨hin, hw, hsize, hfmt, hlive, htraffic⟩

/-- Settles O44, command by command. -/
theorem commandsWriteOnlyTheirRegisters : Obligations.CommandsWriteOnlyTheirRegisters := by
  refine ⟨fun desc s t h => execInitIn_frame h, fun desc s t h => execInitOut_frame h, fun len bytes s t h => ?_,
    fun len s t h => execRead_frame h, fun s t h => ?_⟩
  · obtain ⟨hout, ⟨hsize, hnum, hcap, hfmt, hlive, hpfi⟩, hfault, htraffic⟩ := execWrite_frame h
    exact ⟨hout, hsize, hnum, hcap, hfmt, hlive, hpfi, hfault, htraffic⟩
  · cases h
    rfl

end Sys2Proof.Machine
end

section
/-! The state after hardware reset (spec/10_state.md rule R51), what a legal state says of the ring and the scratch
memories (rules R41, R42, R50), and the status window (rule R35). -/

namespace Sys2Proof.Machine

/-! ### Hardware reset (R51) -/

/-- Settles O45: power-on is a hardware reset of the reset state itself, and hardware reset writes every field. -/
theorem resetStateValues : Obligations.ResetStateValues := by
  intro s t h
  have hreset : ∃ u : State, u.cfg = s.cfg ∧ t = u.hardReset := by
    obtain rfl | ⟨hmove, hstep⟩ := h
    · exact ⟨State.resetWith s.cfg, rfl, rfl⟩
    · exact ⟨s.afterMove, rfl, step_hardReset hmove hstep⟩
  obtain ⟨u, hcfg, rfl⟩ := hreset
  refine ⟨rfl, rfl, rfl, rfl, rfl, rfl, rfl, rfl, rfl, rfl, rfl, rfl, rfl, rfl, rfl, fun sp => ?_, ?_,
    fun ph hph => List.eq_of_mem_replicate hph⟩
  · cases sp <;> rfl
  · rw [← hcfg]
    exact List.length_replicate

/-- The test configuration meets the constraints of rule R9 (R10). -/
theorem Config.T8_legal : Config.T8.Legal := by decide

/-- Settles O49: with every register zero, every clause of the invariant is the one of a block that owns nothing. -/
theorem resetStateIsLegal : Obligations.ResetStateIsLegal :=
  ⟨fun _ hc => ⟨State.resetWith_legal hc, rfl, rfl, rfl⟩, Config.T8_legal, State.resetWith_legal Config.T8_legal⟩

/-! ### The ring (R44 item 7, R50) -/

/-- The distance from `r` up to `w` on a ring of `n` slots is less than `n`, and zero only from a slot to itself. -/
theorem ring_distance {n w r : Nat} (hw : w < n) (hr : r < n) :
    (w + n - r) % n ≤ n - 1 ∧ ((w + n - r) % n = 0 ↔ w = r) := by
  rcases Nat.lt_or_ge w r with hlt | hge
  · rw [Nat.mod_eq_of_lt (by omega)]
    omega
  · rw [show w + n - r = w - r + n by omega, Nat.add_mod_right, Nat.mod_eq_of_lt (by omega)]
    omega

/-- Settles O53: in a legal state both cursors name slots of the ring. -/
theorem equalCursorsMeanEmpty : Obligations.EqualCursorsMeanEmpty := by
  intro s h hlive
  have hring := h.ringReady hlive
  obtain ⟨hle, hzero⟩ := ring_distance hring.writeFrameId_lt hring.readFrameId_lt
  exact ⟨hle, hzero.trans BitVec.toNat_inj⟩

/-! ### The scratch memories (R41, R42, R68, R69) -/

/-- Settles O54: a memory reads zero beyond the addresses it lists. -/
theorem pfiIsZeroBeyondHeldBytesAndPfoWhenNothingIsKept :
    Obligations.PfiIsZeroBeyondHeldBytesAndPfoWhenNothingIsKept := by
  intro s a h
  obtain ⟨-, -, -, -, hpfi, -, hpfo⟩ := h.memory
  refine ⟨fun hzero => ?_, fun hpending hbeyond => ?_, fun hnone => ?_⟩
  · exact Memory.read_eq_zero_of_within hpfi (State.heldIn_of_zero hzero ▸ Nat.zero_le a)
  · exact Memory.read_eq_zero_of_within hpfi (State.heldIn_of_pending hpending ▸ hbeyond)
  · rw [hpfo hnone]
    rfl

/-! ### The status window (R35) -/

/-- The ownership bits stand in bits 0 to 2 of `SR0`, and the rest of it is zero. -/
theorem liveWord_fields (s : State) :
    s.liveWord.getLsbD 0 = s.liveStorage ∧ s.liveWord.getLsbD 1 = s.livePfi ∧ s.liveWord.getLsbD 2 = s.livePfo ∧
      s.liveWord.extractLsb' 3 29 = 0#29 := by
  rw [State.liveWord]
  cases s.liveStorage <;> cases s.livePfi <;> cases s.livePfo <;> decide

theorem sameBlock_refl (s : State) : SameBlock s s :=
  ⟨⟨rfl, rfl⟩, ⟨rfl, rfl, rfl, rfl, rfl, rfl, rfl, rfl, rfl⟩, rfl, rfl, rfl, rfl, rfl⟩

/-- Settles O47: neither move of the window writes a register, and only the read hands something out. -/
theorem statusWindowShowsTheRegisters : Obligations.StatusWindowShowsTheRegisters := by
  refine ⟨fun s => ⟨rfl, liveWord_fields s⟩, fun s n hmove => ?_, fun s n v hmove => ?_⟩
  · refine ⟨s.afterMove.emit (.windowWord n (s.windowWord n)), ?_, rfl, sameBlock_refl s, rfl, rfl, rfl, rfl⟩
    rw [step, hmove]
    rfl
  · refine ⟨s.afterMove, ?_, sameBlock_refl s, rfl, rfl, rfl, rfl, rfl, rfl, rfl⟩
    rw [step, hmove]
    rfl

end Sys2Proof.Machine
end

section
/-! Which bytes of `STORAGE` a `WRITE` stores to: the slots from the write cursor on, one for each frame it commits
(spec/20_memory.md rules R65, R66, spec/41_write.md rule R153). -/

namespace Sys2Proof.Machine

/-! ### The slots from the write cursor on (R65, R66) -/

/-- The slot the write cursor names after `j` more commits (R65). -/
def State.slotAhead (s : State) (j : Nat) : Word :=
  BitVec.ofNat 32 ((s.writeFrameId.toNat + j) % s.numFrames.toNat)

/-- The address lies in none of the next `n` slots to be written (R66). -/
def State.AvoidsSlots (s : State) (n a : Nat) : Prop :=
  ∀ j < n, a < s.slotAddr (s.slotAhead j) ∨ s.slotAddr (s.slotAhead j) + s.frameSizeIn.toNat ≤ a

/-- From `s` to `t` the write cursor went `n` slots on, and no byte of `STORAGE` outside those slots changed. -/
structure StoresSlots (n : Nat) (s t : State) : Prop where
  frameSizeIn : t.frameSizeIn = s.frameSizeIn
  slotAhead : ∀ j, t.slotAhead j = s.slotAhead (n + j)
  read : ∀ a, s.AvoidsSlots n a → Memory.read t.storage a = Memory.read s.storage a

section

variable {s t u : State} {n m : Nat}

/-- The slot zero commits ahead is the one a cursor in range names. -/
theorem State.RingReady.slotAhead_zero (h : s.RingReady) : s.slotAhead 0 = s.writeFrameId := by
  rw [State.slotAhead, Nat.add_zero, Nat.mod_eq_of_lt h.writeFrameId_lt, BitVec.ofNat_toNat, BitVec.setWidth_eq]

/-- One advance of the write cursor moves every slot ahead by one (R152). -/
theorem State.slotAhead_advanceWrite (hnum : s.numFrames ≠ 0#32) (j : Nat) :
    s.advanceWrite.slotAhead j = s.slotAhead (1 + j) := by
  rw [State.slotAhead, State.advanceWrite_writeFrameId, State.advanceWrite_numFrames, nextSlot_toNat _ hnum,
    Nat.mod_add_mod, Nat.add_assoc, State.slotAhead]

theorem State.AvoidsSlots.mono {a : Nat} (h : s.AvoidsSlots m a) (hle : n ≤ m) : s.AvoidsSlots n a :=
  fun j hj => h j (hj.trans_le hle)

/-- The slots after the first `n` are those ahead of the state the first `n` commits lead to. -/
theorem StoresSlots.avoidsSlots (h : StoresSlots n s t) {a : Nat} (ha : s.AvoidsSlots (n + m) a) :
    t.AvoidsSlots m a := by
  intro j hj
  rw [State.slotAddr, h.slotAhead, h.frameSizeIn]
  exact ha (n + j) (Nat.add_lt_add_left hj n)

theorem StoresSlots.trans (h : StoresSlots n s t) (h' : StoresSlots m t u) : StoresSlots (n + m) s u where
  frameSizeIn := h'.frameSizeIn.trans h.frameSizeIn
  slotAhead j := by rw [h'.slotAhead, h.slotAhead, Nat.add_assoc]
  read a ha := (h'.read a (h.avoidsSlots ha)).trans (h.read a (ha.mono (Nat.le_add_right n m)))

/-- A step of `WRITE` that leaves the cursors and `STORAGE` alone stores to no slot. -/
theorem StoresSlots.of_writeFrame (hf : WriteFrame s t) (hc : SameCursors s t) (hstorage : t.storage = s.storage) :
    StoresSlots 0 s t := by
  obtain ⟨-, ⟨hsize, hnum, -⟩, -⟩ := hf
  obtain ⟨hw, -⟩ := hc
  exact
    { frameSizeIn := hsize
      slotAhead := fun j => by rw [State.slotAhead, hw, hnum, Nat.zero_add, State.slotAhead]
      read := fun a _ => by rw [hstorage] }

/-! ### The steps of `WRITE` (R151, R153 to R155) -/

theorem memWrite_pfi_storesSlots {a : Nat} {bs : List Byte} (h : memWrite s .pfi a bs = .ok t) :
    StoresSlots 0 s t := by
  refine .of_writeFrame (memWrite_pfi_frame h) (memWrite_pfi_sameCursors h) ?_
  obtain ⟨-, rfl⟩ := memWrite_ok.1 h
  rfl

theorem setPartialIn_storesSlots (s : State) (k : Nat) : StoresSlots 0 s (s.setPartialIn k) :=
  .of_writeFrame (setPartialIn_frame s k) ⟨rfl, rfl⟩ rfl

/-- A commit of at most a frame stores inside the slot at the write cursor, then moves the cursor on (R153). -/
theorem commitFrame_storesSlots {f : List Byte} (h : s.RingReady) (hf : f.length ≤ s.frameSizeIn.toNat)
    (hok : commitFrame f s = .ok t) : StoresSlots 1 s t := by
  obtain ⟨hnum, -, rfl⟩ := commitFrame_ok.1 hok
  refine ⟨rfl, State.slotAhead_advanceWrite (s := s.setRegion .storage _) hnum, fun a ha => ?_⟩
  have hslot := ha 0 Nat.one_pos
  rw [h.slotAhead_zero] at hslot
  exact Memory.read_writeBytes_outside _ _ (by omega)

/-- `n` frames of the payload go to the next `n` slots (R154). -/
theorem commitWhole_storesSlots {b : List Byte} {y : State × List Byte} (h : s.StorageReady)
    (hok : commitWhole n b s = .ok y) : StoresSlots n s y.1 := by
  induction n generalizing b s with
  | zero =>
    cases hok
    exact .of_writeFrame (.refl s) ⟨rfl, rfl⟩ rfl
  | succ n ih =>
    obtain ⟨s1, hcommit, hrest⟩ := commitWhole_succ_ok.1 hok
    have hfirst := commitFrame_storesSlots h.ring (List.length_take_le _ _) hcommit
    rw [Nat.add_comm n 1]
    exact hfirst.trans (ih (commitFrame_storageReady h hcommit) hrest)

theorem commitFrames_storesSlots {b : List Byte} {y : State × List Byte} (h : s.StorageReady)
    (hok : commitFrames b s = .ok y) : StoresSlots (b.length / s.frameSizeIn.toNat) s y.1 :=
  commitWhole_storesSlots h (commitFrames_ok.1 hok).2

@[simp] theorem State.length_held (s : State) : s.held.length = s.heldIn :=
  Memory.length_readBytes ..

/-- Step 1 commits the frame it completes, if it completes one; the whole frames of what it leaves of the payload are the
rest of those the held bytes and the payload make up (R151). -/
theorem completePartial_storesSlots {b : List Byte} {y : State × List Byte} (h : s.WriteReady)
    (hok : completePartial b s = .ok y) :
    ∃ k, StoresSlots k s y.1 ∧
      k + y.2.length / s.frameSizeIn.toNat = (s.held ++ b).length / s.frameSizeIn.toNat := by
  have hlt := h.partialBytesIn_lt
  rw [List.length_append, State.length_held]
  obtain ⟨hzero, rfl⟩ | ⟨hpending, -, s1, h1, hcase⟩ := completePartial_ok hok
  · refine ⟨0, .of_writeFrame (.refl s) ⟨rfl, rfl⟩ rfl, ?_⟩
    rw [State.heldIn_of_zero hzero, Nat.zero_add, Nat.zero_add]
  · rw [State.heldIn_of_pending hpending]
    have hpartial (k : Nat) : StoresSlots 0 s (s1.setPartialIn k) :=
      (memWrite_pfi_storesSlots h1).trans (setPartialIn_storesSlots s1 k)
    obtain ⟨hshort, rfl⟩ | ⟨hfull, f, s3, s4, hread, hcommit, h4, rfl⟩ := hcase
    · refine ⟨0, hpartial _, ?_⟩
      rw [List.drop_length, List.length_nil, Nat.zero_div, Nat.div_eq_of_lt (by omega)]
    · have hs2 := (h.storage.memWrite_pfi h1).of_writeFrame (setPartialIn_frame s1 0) ⟨rfl, rfl⟩ rfl
      have hlen : f.length ≤ (s1.setPartialIn 0).frameSizeIn.toNat := by
        rw [(memRead_ok.1 hread).2, Memory.length_readBytes, (hpartial 0).frameSizeIn]
      have hframe := commitFrame_storesSlots hs2.ring hlen hcommit
      refine ⟨1, ((hpartial 0).trans hframe).trans (memWrite_pfi_storesSlots h4), ?_⟩
      rw [List.length_drop, Nat.add_comm 1, ← Nat.add_div_right _ h.storage.ring.frameSizeIn_pos]
      congr 1
      omega

theorem keepTail_storesSlots {b : List Byte} (hok : keepTail b s = .ok t) : StoresSlots 0 s t := by
  obtain ⟨hf, hstorage, hc⟩ := keepTail_frame hok
  exact .of_writeFrame hf hc hstorage

/-- The three steps store to one slot for each whole frame of the held bytes and the payload (R150, R156). -/
theorem writeBody_storesSlots {b : List Byte} (h : s.WriteReady) (hok : writeBody b s = .ok t) :
    StoresSlots ((s.held ++ b).length / s.frameSizeIn.toNat) s t := by
  obtain ⟨x, y, hx, hy, ht⟩ := writeBody_ok.1 hok
  obtain ⟨k, hfirst, hcount⟩ := completePartial_storesSlots h hx
  obtain ⟨hxready, -⟩ := completePartial_writeReady h hx
  have hwhole := commitFrames_storesSlots hxready.storage hy
  rw [hfirst.frameSizeIn] at hwhole
  rw [← hcount]
  exact (hfirst.trans hwhole).trans (keepTail_storesSlots ht)

end

/-- Settles O21: a `WRITE` that fails stores nothing, and one that succeeds is its three steps. -/
theorem writeStoresOnlyItsSlots : Obligations.WriteStoresOnlyItsSlots := by
  intro s t len b h (hstep : execWrite len (some b) s = .next t)
  obtain ⟨⟨-, -, -, -, hpfo⟩, -⟩ := execWrite_frame hstep
  obtain ⟨c, rfl⟩ | ⟨hlive, -, b', u, hb, hu, rfl⟩ := execWrite_next hstep
  · obtain ⟨-, -, -, -, hpfi, -⟩ := h.memory
    exact ⟨fun _ _ => rfl, fun a ha => Memory.read_eq_zero_of_within hpfi ha, hpfo⟩
  · cases hb
    have hready := h.writeReady hlive
    have hpfi := (writeBody_writeReady hready hu).pfi_within
    exact ⟨(writeBody_storesSlots hready hu).read, fun a ha => Memory.read_eq_zero_of_within hpfi ha, hpfo⟩

end Sys2Proof.Machine
end

section
/-! The opcode map: what `classify` answers, field by field (spec/30_encoding.md rules R92, R93, R103, R110). -/

namespace Sys2Proof

/-- `OPC` names a row exactly when it is the row's code (R93). -/
theorem opcodeOf_eq_some_iff {c : BitVec 8} {o : Opcode} : opcodeOf c = some o ↔ c = o.code := by
  constructor
  · intro h
    unfold opcodeOf at h
    split_ifs at h <;> (cases h; assumption)
  · rintro rfl
    cases o <;> rfl

/-- `OPC` names no row exactly outside `0x01 .. 0x05` (R103). -/
theorem opcodeOf_eq_none_iff {c : BitVec 8} : opcodeOf c = none ↔ c < 0x01#8 ∨ 0x05#8 < c := by
  revert c
  decide

/-- A word is the command `o` when `OPC` is the code of `o`, `RSV` is zero, and the fields `o` does not use are zero. -/
theorem classify_eq_ok_iff {w : CmdWord} {o : Opcode} :
    classify w = .ok o ↔ opcField w = o.code ∧ rsvField w = 0#23 ∧
      ((o = .read ∨ o = .reset) → pvField w = false) ∧
      ((o = .initIn ∨ o = .initOut ∨ o = .reset) → lenField w = 0#32) := by
  unfold classify
  rw [← opcodeOf_eq_some_iff]
  cases opcodeOf (opcField w) with
  | none => simp
  | some o' =>
    simp only [Option.some.injEq]
    constructor
    · intro h
      split_ifs at h with hrsv hpv hlen
      cases h
      exact ⟨rfl, not_not.1 hrsv, fun ho => Bool.eq_false_of_not_eq_true fun hp => hpv ⟨hp, ho⟩,
        fun ho => not_not.1 fun hl => hlen ⟨hl, ho⟩⟩
    · rintro ⟨rfl, hrsv, hpv, hlen⟩
      rw [if_neg (not_not.2 hrsv), if_neg fun h => Bool.noConfusion ((hpv h.2).symm.trans h.1),
        if_neg fun h => h.1 (hlen h.2)]

/-- Mask and match of a row say the same of a word as its fields do (R110). -/
theorem classify_eq_ok_iff_selects {w : CmdWord} {o : Opcode} : classify w = .ok o ↔ o.selects w = true :=
  classify_eq_ok_iff.trans (selects_iff o w).symm

/-- Settles O4: `classify` is a function, so the rows it agrees with are disjoint. -/
theorem opcodeMapSelectsTheCommand : Obligations.OpcodeMapSelectsTheCommand := by
  refine ⟨fun w o => classify_eq_ok_iff_selects, fun w o o' h h' => ?_⟩
  have hsame := (classify_eq_ok_iff_selects.2 h).symm.trans (classify_eq_ok_iff_selects.2 h')
  exact Except.ok.inj hsame

/-- A word that is no command is illegal, and no command is. -/
theorem classify_eq_error_iff {w : CmdWord} : (∃ e, classify w = .error e) ↔ ∀ o, classify w ≠ .ok o := by
  cases classify w <;> simp

/-- Settles O5: a word whose `OPC` names a row is illegal exactly when one of the fields that row needs zero is not. -/
theorem illegalWordsAreThese : Obligations.IllegalWordsAreThese := by
  intro w
  rw [classify_eq_error_iff, ← opcodeOf_eq_none_iff]
  cases hopc : opcodeOf (opcField w) with
  | none =>
    refine iff_of_true (fun o hok => ?_) (.inl rfl)
    rw [opcodeOf_eq_some_iff.2 (classify_eq_ok_iff.1 hok).1] at hopc
    cases hopc
  | some o =>
    have hcode := opcodeOf_eq_some_iff.1 hopc
    have hrow : (∀ o', classify w ≠ .ok o') ↔ classify w ≠ .ok o := by
      refine ⟨fun h => h o, fun h o' hok => h ?_⟩
      have hcode' := opcodeOf_eq_some_iff.2 (classify_eq_ok_iff.1 hok).1
      rwa [Option.some.inj (hopc.symm.trans hcode')]
    rw [hrow, ne_eq, classify_eq_ok_iff, hcode]
    simp only [not_and_or, Classical.not_imp, Bool.not_eq_false]
    cases o <;> simp [Opcode.code]

end Sys2Proof
end

section
/-! Commands and their requests: encoding and decoding undo each other, also over a byte-wide channel
(spec/30_encoding.md rules R91 to R98, R105). -/

namespace Sys2Proof

/-! ### Descriptor records as bytes (R91, R96) -/

theorem drop_leBytes_append (n : Nat) (v : Int) (bs : List Byte) (a : Nat) :
    (leBytes n v ++ bs).drop (a + n) = bs.drop a := by
  rw [List.drop_append, List.drop_of_length_le (by simp), length_leBytes, Nat.add_sub_cancel, List.nil_append]

/-- A word that stands after the bytes of another. -/
theorem wordAt_leBytes_append (v : Int) (bs : List Byte) (a : Nat) :
    wordAt (leBytes 4 v ++ bs) (a + 4) = wordAt bs a := by
  rw [wordAt, wordAt, slice, slice, drop_leBytes_append]

/-- The bytes of a word that lies inside a byte array are the four bytes it was read from. -/
theorem leBytes_wordAt {bs : List Byte} {a : Nat} (h : a + 4 ≤ bs.length) :
    leBytes 4 (wordAt bs a).toNat = (bs.drop a).take 4 := by
  have hlen : (slice bs a 4).length = 4 := by
    rw [length_slice]
    omega
  have hlt : leUint (slice bs a 4) < 2 ^ 32 := by
    have := leUint_lt (slice bs a 4)
    rwa [hlen] at this
  have hbytes := leBytes_leUint (slice bs a 4)
  rw [hlen] at hbytes
  rw [wordAt, BitVec.toNat_ofNat, Nat.mod_eq_of_lt hlt, hbytes, slice]

/-- The record at the head of the bytes of a descriptor is that descriptor; what follows goes to the extension. -/
theorem descriptorOf_descriptorBytes_append (d : Descriptor) (rest : List Byte) :
    descriptorOf (descriptorBytes d ++ rest) = { d with ext := d.ext ++ rest } := by
  simp only [descriptorOf, descriptorBytes, List.append_assoc, Machine.wordAt_leBytes, wordAt_leBytes_append _ _ 0,
    wordAt_leBytes_append _ _ 4, wordAt_leBytes_append _ _ 8, drop_leBytes_append 4 _ _ 0,
    drop_leBytes_append 4 _ _ 4, drop_leBytes_append 4 _ _ 8, drop_leBytes_append 4 _ _ 12, List.drop_zero]

/-- The bytes of the record at the head of a payload are that payload. -/
theorem descriptorBytes_descriptorOf {payload : List Byte} (h : 16 ≤ payload.length) :
    descriptorBytes (descriptorOf payload) = payload := by
  have hsplit (a : Nat) : (payload.drop a).take 4 ++ payload.drop (a + 4) = payload.drop a := by
    rw [← List.drop_drop, List.take_append_drop]
  simp only [descriptorBytes, descriptorOf, List.append_assoc]
  rw [leBytes_wordAt (by omega), leBytes_wordAt (by omega), leBytes_wordAt (by omega), leBytes_wordAt (by omega),
    hsplit 12, hsplit 8, hsplit 4, hsplit 0, List.drop_zero]

@[simp] theorem length_descriptorBytes (d : Descriptor) : (descriptorBytes d).length = 16 + d.ext.length := by
  simp only [descriptorBytes, List.length_append, length_leBytes]

/-! ### The encoder, with the null operand as an option (R94, R98) -/

@[simp] theorem pvField_cmdWord (o : Opcode) (pv : Bool) (len : Word) : pvField (cmdWord o pv len) = pv :=
  pvField_fieldsWord ..

@[simp] theorem lenField_cmdWord (o : Opcode) (pv : Bool) (len : Word) : lenField (cmdWord o pv len) = len :=
  lenField_fieldsWord ..

theorem encode_initIn (desc : Option Descriptor) :
    encode (.initIn desc) = ⟨cmdWord .initIn desc.isSome 0#32, desc.elim [] descriptorBytes⟩ := by
  cases desc <;> rfl

theorem encode_initOut (desc : Option Descriptor) :
    encode (.initOut desc) = ⟨cmdWord .initOut desc.isSome 0#32, desc.elim [] descriptorBytes⟩ := by
  cases desc <;> rfl

theorem encode_write (len : Word) (bytes : Option (List Byte)) :
    encode (.write len bytes) = ⟨cmdWord .write bytes.isSome len, bytes.getD []⟩ := by
  cases bytes <;> rfl

/-- The word of a command names the command (R110). -/
theorem classify_encode (i : Instr) : classify (encode i).word = .ok i.opcode := by
  have hrow : Laws.EncodesItsRow.Statement i := by
    cases i with
    | initIn desc => exact Laws.EncodesItsRow.initIn desc
    | initOut desc => exact Laws.EncodesItsRow.initOut desc
    | write len bytes => exact Laws.EncodesItsRow.write len bytes
    | read len => exact Laws.EncodesItsRow.read len
    | reset => exact Laws.EncodesItsRow.reset
  exact classify_eq_ok_iff_selects.2 ((hrow i.opcode).2 rfl)

/-- A command word is made of its opcode and its free fields. -/
theorem eq_cmdWord_of_classify {w : CmdWord} {o : Opcode} (h : classify w = .ok o) :
    w = cmdWord o (pvField w) (lenField w) := by
  obtain ⟨hopc, hrsv, -, -⟩ := classify_eq_ok_iff.1 h
  rw [cmdWord, ← hopc, ← hrsv, fieldsWord_fields]

/-! ### How many payload bytes a command word implies (R105) -/

theorem payloadLength_init {r : Request} (h : classify r.word = .ok .initIn ∨ classify r.word = .ok .initOut) :
    payloadLength r = if pvField r.word then 16 + (descriptorOf r.payload).extLen.toNat else 0 := by
  obtain h | h := h <;> rw [payloadLength, h]

theorem payloadLength_write {r : Request} (h : classify r.word = .ok .write) :
    payloadLength r = if pvField r.word then (lenField r.word).toNat else 0 := by
  rw [payloadLength, h]

theorem payloadLength_read_reset {r : Request} (h : classify r.word = .ok .read ∨ classify r.word = .ok .reset) :
    payloadLength r = 0 := by
  obtain h | h := h <;> rw [payloadLength, h]

theorem Descriptor.wellFormed_iff {extMax : Nat} {d : Descriptor} :
    d.wellFormed extMax = true ↔ d.ext.length = d.extLen.toNat ∧ d.extLen.toNat ≤ extMax := by
  rw [Descriptor.wellFormed, Bool.and_eq_true, decide_eq_true_eq, decide_eq_true_eq]

/-- The length read from the word of a descriptor command and the bytes that follow is that of its record. -/
theorem payloadLength_descriptor {extMax : Nat} {w : CmdWord} {desc : Option Descriptor} (rest : List Byte)
    (hw : classify w = .ok .initIn ∨ classify w = .ok .initOut) (hpv : pvField w = desc.isSome)
    (hwf : ∀ d ∈ desc, d.wellFormed extMax = true) :
    payloadLength ⟨w, desc.elim [] descriptorBytes ++ rest⟩ = (desc.elim [] descriptorBytes).length := by
  rw [payloadLength_init (r := ⟨w, _⟩) hw, hpv]
  cases desc with
  | none => rfl
  | some d =>
    obtain ⟨hext, -⟩ := Descriptor.wellFormed_iff.1 (hwf d rfl)
    have hlen : (descriptorOf (descriptorBytes d ++ rest)).extLen = d.extLen := by
      rw [descriptorOf_descriptorBytes_append, Descriptor.extLen, Descriptor.extLen]
    simp only [Option.isSome_some, if_true, Option.elim_some, hlen, length_descriptorBytes, hext]

/-- A request says its own length, whatever follows it (R105). -/
theorem payloadLength_encode {extMax : Nat} {i : Instr} (h : i.wellFormed extMax = true) (rest : List Byte) :
    payloadLength ⟨(encode i).word, (encode i).payload ++ rest⟩ = (encode i).payload.length := by
  have hrow := classify_encode i
  cases i with
  | initIn desc =>
    rw [encode_initIn] at hrow ⊢
    refine payloadLength_descriptor (extMax := extMax) rest (.inl hrow) (pvField_cmdWord ..) fun d hd => ?_
    cases hd
    exact h
  | initOut desc =>
    rw [encode_initOut] at hrow ⊢
    refine payloadLength_descriptor (extMax := extMax) rest (.inr hrow) (pvField_cmdWord ..) fun d hd => ?_
    cases hd
    exact h
  | write len bytes =>
    rw [encode_write] at hrow ⊢
    refine (payloadLength_write (r := ⟨_, bytes.getD [] ++ rest⟩) hrow).trans ?_
    rw [pvField_cmdWord, lenField_cmdWord]
    cases bytes with
    | none => rfl
    | some b => exact (of_decide_eq_true h).symm
  | read len => exact payloadLength_read_reset (.inl hrow)
  | reset => exact payloadLength_read_reset (.inr hrow)

/-! ### The decoder (R94, R103, R105) -/

theorem descriptorOperand_eq_ok_iff {extMax : Nat} {r : Request} {desc : Option Descriptor} :
    descriptorOperand extMax r = .ok desc ↔
      (pvField r.word = false ∧ desc = none) ∨
        (pvField r.word = true ∧ (descriptorOf r.payload).extLen.toNat ≤ extMax ∧
          desc = some (descriptorOf r.payload)) := by
  unfold descriptorOperand
  split_ifs with hpv hext
  · simp [hpv, eq_comm]
  · simp [hpv, hext]
  · simp [hpv, Nat.not_lt.1 hext, eq_comm]

/-- The operands of a command are those a request carries. -/
def Instr.OperandsOf (extMax : Nat) (r : Request) : Instr → Prop
  | .initIn desc => descriptorOperand extMax r = .ok desc
  | .initOut desc => descriptorOperand extMax r = .ok desc
  | .write len bytes => len = lenField r.word ∧ bytes = bytesOperand r
  | .read len => len = lenField r.word
  | .reset => True

/-- The decoder reads a command when the payload has the length the word implies, the word names the command, and the
operands are those of the request. -/
theorem decode_eq_ok_iff {extMax : Nat} {r : Request} {i : Instr} :
    decode extMax r = .ok i ↔
      r.payload.length = payloadLength r ∧ classify r.word = .ok i.opcode ∧ i.OperandsOf extMax r := by
  constructor
  · intro h
    unfold decode at h
    split_ifs at h with hlen
    refine ⟨not_not.1 hlen, ?_⟩
    split at h
    · cases h
    · rename_i hrow
      obtain ⟨desc, hdesc, rfl⟩ := except_map_eq_ok h
      exact ⟨hrow, hdesc⟩
    · rename_i hrow
      obtain ⟨desc, hdesc, rfl⟩ := except_map_eq_ok h
      exact ⟨hrow, hdesc⟩
    · rename_i hrow
      cases h
      exact ⟨hrow, rfl, rfl⟩
    · rename_i hrow
      cases h
      exact ⟨hrow, rfl⟩
    · rename_i hrow
      cases h
      exact ⟨hrow, trivial⟩
  · rintro ⟨hlen, hrow, hops⟩
    unfold decode
    rw [if_neg (not_not.2 hlen), hrow]
    cases i with
    | initIn desc => exact congrArg (Except.map Instr.initIn) hops
    | initOut desc => exact congrArg (Except.map Instr.initOut) hops
    | write len bytes =>
      obtain ⟨rfl, rfl⟩ := hops
      rfl
    | read len =>
      cases hops
      rfl
    | reset => rfl

/-- What a descriptor operand says of the request it was read from. -/
theorem request_of_descriptorOperand {extMax : Nat} {r : Request} {desc : Option Descriptor}
    (hlen : r.payload.length = if pvField r.word then 16 + (descriptorOf r.payload).extLen.toNat else 0)
    (h : descriptorOperand extMax r = .ok desc) :
    desc.isSome = pvField r.word ∧ desc.elim [] descriptorBytes = r.payload := by
  obtain ⟨hpv, rfl⟩ | ⟨hpv, -, rfl⟩ := descriptorOperand_eq_ok_iff.1 h
  · rw [hpv] at hlen
    exact ⟨hpv.symm, (List.length_eq_zero_iff.1 hlen).symm⟩
  · rw [hpv, if_pos rfl] at hlen
    exact ⟨hpv.symm, descriptorBytes_descriptorOf (by omega)⟩

/-! ### The round trips -/

theorem operandsOf_encode {extMax : Nat} {i : Instr} (h : i.wellFormed extMax = true) :
    i.OperandsOf extMax (encode i) := by
  have hdesc {d : Descriptor} (hd : d.wellFormed extMax = true) (o : Opcode) :
      descriptorOperand extMax ⟨cmdWord o true 0#32, descriptorBytes d⟩ = .ok (some d) := by
    have hrecord : descriptorOf (descriptorBytes d) = d := by
      simpa using descriptorOf_descriptorBytes_append d []
    refine descriptorOperand_eq_ok_iff.2 (.inr ⟨pvField_cmdWord .., ?_, congrArg some hrecord.symm⟩)
    rw [hrecord]
    exact (Descriptor.wellFormed_iff.1 hd).2
  have hnull (o : Opcode) : descriptorOperand extMax ⟨cmdWord o false 0#32, []⟩ = .ok none :=
    descriptorOperand_eq_ok_iff.2 (.inl ⟨pvField_cmdWord .., rfl⟩)
  match i with
  | .initIn none => exact hnull .initIn
  | .initIn (some d) => exact hdesc h .initIn
  | .initOut none => exact hnull .initOut
  | .initOut (some d) => exact hdesc h .initOut
  | .write len none => simp [Instr.OperandsOf, encode, bytesOperand]
  | .write len (some b) => simp [Instr.OperandsOf, encode, bytesOperand]
  | .read len => simp [Instr.OperandsOf, encode]
  | .reset => trivial

/-- Settles O1: the request of a command has the length, the opcode and the operands the decoder looks for. -/
theorem decodeOfEncode : Obligations.DecodeOfEncode := by
  intro extMax i h
  refine decode_eq_ok_iff.2 ⟨?_, classify_encode i, operandsOf_encode h⟩
  simpa using (payloadLength_encode h []).symm

/-- What the bytes operand of a `WRITE` says of the request it was read from. -/
theorem request_of_bytesOperand {r : Request}
    (hlen : r.payload.length = if pvField r.word then (lenField r.word).toNat else 0) :
    (bytesOperand r).isSome = pvField r.word ∧ (bytesOperand r).getD [] = r.payload := by
  unfold bytesOperand
  cases hpv : pvField r.word with
  | false =>
    rw [hpv] at hlen
    exact ⟨rfl, (List.length_eq_zero_iff.1 hlen).symm⟩
  | true => exact ⟨rfl, rfl⟩

/-- Settles O2: the fields the row does not use are zero and the payload is as long as the word implies, so the fields
and the operands that were read are the whole request. -/
theorem encodeOfDecode : Obligations.EncodeOfDecode := by
  intro extMax r i h
  obtain ⟨hlen, hrow, hops⟩ := decode_eq_ok_iff.1 h
  obtain ⟨-, -, hpv, hzero⟩ := classify_eq_ok_iff.1 hrow
  have hword := eq_cmdWord_of_classify hrow
  have hrequest {w : CmdWord} {bs : List Byte} (hw : r.word = w) (hbs : r.payload = bs) : ⟨w, bs⟩ = r := by
    cases r
    cases hw
    cases hbs
    rfl
  cases i with
  | initIn desc =>
    rw [payloadLength_init (.inl hrow)] at hlen
    obtain ⟨hsome, hbytes⟩ := request_of_descriptorOperand hlen hops
    rw [encode_initIn, hsome, hbytes, ← hzero (.inl rfl)]
    exact hrequest hword rfl
  | initOut desc =>
    rw [payloadLength_init (.inr hrow)] at hlen
    obtain ⟨hsome, hbytes⟩ := request_of_descriptorOperand hlen hops
    rw [encode_initOut, hsome, hbytes, ← hzero (.inr (.inl rfl))]
    exact hrequest hword rfl
  | write len bytes =>
    rw [payloadLength_write hrow] at hlen
    obtain ⟨hsome, hbytes⟩ := request_of_bytesOperand hlen
    obtain ⟨rfl, rfl⟩ := hops
    rw [encode_write, hsome, hbytes]
    exact hrequest hword rfl
  | read len =>
    rw [payloadLength_read_reset (.inl hrow)] at hlen
    cases hops
    rw [encode, ← hpv (.inl rfl)]
    exact hrequest hword (List.length_eq_zero_iff.1 hlen)
  | reset =>
    rw [payloadLength_read_reset (.inr hrow)] at hlen
    rw [encode, ← hpv (.inr rfl), ← hzero (.inr (.inr rfl))]
    exact hrequest hword (List.length_eq_zero_iff.1 hlen)

/-- Settles O3, which keeping legal states legal already needed. -/
theorem decodedIsWellFormed : Obligations.DecodedIsWellFormed :=
  fun _ _ _ h => decode_wellFormed h

/-! ### The byte channel (R91) -/

/-- A request goes through a byte stream when its word, with the bytes after it, says its length. -/
theorem Request.ofBytes_toBytes_append {r : Request} {rest : List Byte}
    (h : payloadLength ⟨r.word, r.payload ++ rest⟩ = r.payload.length) :
    Request.ofBytes (r.toBytes ++ rest) = some (r, rest) := by
  have hdrop : (r.toBytes ++ rest).drop 8 = r.payload ++ rest := by
    rw [Request.toBytes, List.append_assoc]
    exact drop_leBytes_append 8 _ _ 0
  have hword : BitVec.ofNat 64 (leUint ((r.toBytes ++ rest).take 8)) = r.word := by
    rw [Request.toBytes, List.append_assoc, List.take_left' (length_leBytes 8 _),
      leUint_leBytes_natCast (by have := r.word.isLt; omega), BitVec.ofNat_toNat, BitVec.setWidth_eq]
  have hlen : (r.toBytes ++ rest).length = 8 + (r.payload.length + rest.length) := by
    simp only [Request.toBytes, List.length_append, length_leBytes, Nat.add_assoc]
  unfold Request.ofBytes
  dsimp only
  rw [hword, hdrop, h, hlen, if_neg (by omega), ← List.drop_drop, hdrop, List.take_left' rfl, List.drop_left' rfl]

/-- Settles O6: a request says its own length, so the bytes after it are left. -/
theorem byteChannelRoundTrip : Obligations.ByteChannelRoundTrip :=
  fun _ _ rest h => Request.ofBytes_toBytes_append (payloadLength_encode h rest)

/-! ### Worked encodings (R108, R110) -/

/-- Settles O7, word by word and byte by byte. -/
theorem workedEncodings : Obligations.WorkedEncodings := by
  unfold Obligations.WorkedEncodings
  decide

/-- Settles O8, row by row. -/
theorem tableWordsDecode : Obligations.TableWordsDecode := by
  unfold Obligations.TableWordsDecode
  decide

end Sys2Proof
end

section
/-! What a command answers: the fields and the bytes of its response word, and how many data bytes follow it
(spec/30_encoding.md rules R91, R100 to R102). -/

namespace Sys2Proof.Machine

/-! ### The response word (R100, R101) -/

/-- A field of a response word is a field of the concatenation it is made of. -/
theorem extractLsb'_responseWord (ok : Bool) (cause : BitVec 4) (faults : BitVec 8) (a n : Nat) :
    (responseWord ok cause faults).extractLsb' a n =
      (0#16 ++ faults ++ cause ++ 0#3 ++ BitVec.ofBool ok).extractLsb' a n := rfl

/-- The fields of a response word, from bit 0 upward. -/
theorem responseWord_fields (ok : Bool) (cause : BitVec 4) (faults : BitVec 8) :
    (responseWord ok cause faults).getLsbD 0 = ok ∧ (responseWord ok cause faults).extractLsb' 1 3 = 0#3 ∧
      (responseWord ok cause faults).extractLsb' 4 4 = cause ∧
      (responseWord ok cause faults).extractLsb' 8 8 = faults ∧
      (responseWord ok cause faults).extractLsb' 16 16 = 0#16 := by
  refine ⟨?_, ?_⟩
  · simp only [responseWord, BitVec.getLsbD_cast, BitVec.getLsbD_append]
    simp
  · simp (disch := decide) only [extractLsb'_responseWord, BitVec.extractLsb'_append_eq_of_le,
      BitVec.extractLsb'_append_eq_of_add_le]
    simp

/-- Settles O9: both kinds of response are response words with the fields they name. -/
theorem responseWordFields : Obligations.ResponseWordFields := by
  refine ⟨fun faults data => ?_, fun c faults => ?_, rfl, rfl, rfl, rfl, rfl, rfl⟩
  · obtain ⟨hok, hlow, hcause, hfaults, hhigh⟩ := responseWord_fields true 0#4 faults
    exact ⟨hok, hlow, hcause, hfaults, hhigh, rfl⟩
  · obtain ⟨hok, hlow, hcause, hfaults, hhigh⟩ := responseWord_fields false (causeCode c) faults
    exact ⟨hok, hlow, hcause, hfaults, hhigh, rfl⟩

/-! ### The bytes of a word (R91) -/

/-- The bytes of a word are its four byte fields. -/
theorem leBytes_eq_extract (w : Word) :
    leBytes 4 w.toNat = [w.extractLsb' 0 8, w.extractLsb' 8 8, w.extractLsb' 16 8, w.extractLsb' 24 8] := by
  have hsum : leUint [w.extractLsb' 0 8, w.extractLsb' 8 8, w.extractLsb' 16 8, w.extractLsb' 24 8] = w.toNat := by
    have := w.isLt
    simp only [leUint, BitVec.extractLsb'_toNat, Nat.shiftRight_eq_div_pow]
    omega
  rw [← hsum]
  exact leBytes_leUint [_, _, _, _]

/-- The low byte of a word is made of its fields (R100). -/
theorem low_byte_fields (w : Word) :
    w.extractLsb' 0 8 = w.extractLsb' 4 4 ++ w.extractLsb' 1 3 ++ BitVec.ofBool (w.getLsbD 0) := by
  have hbit : BitVec.ofBool (w.getLsbD 0) = w.extractLsb' 0 1 := by
    apply BitVec.eq_of_getLsbD_eq
    simp
  have hhigh : w.extractLsb' 4 4 ++ w.extractLsb' 1 3 = w.extractLsb' 1 7 :=
    BitVec.extractLsb'_append_extractLsb'_eq_extractLsb' rfl
  have hbyte : w.extractLsb' 1 7 ++ w.extractLsb' 0 1 = w.extractLsb' 0 8 :=
    BitVec.extractLsb'_append_extractLsb'_eq_extractLsb' rfl
  rw [hbit, hhigh, hbyte]

/-- The byte form of a response word: `OK` and `CAUSE`, then `FAULTS`, then two zero bytes (R91, R100). -/
theorem leBytes_responseWord (ok : Bool) (cause : BitVec 4) (faults : BitVec 8) :
    leBytes 4 (responseWord ok cause faults).toNat = [cause ++ 0#3 ++ BitVec.ofBool ok, faults, 0#8, 0#8] := by
  obtain ⟨hok, hlow, hcause, hfaults, -⟩ := responseWord_fields ok cause faults
  obtain ⟨hzero2, hzero3⟩ : (responseWord ok cause faults).extractLsb' 16 8 = 0#8 ∧
      (responseWord ok cause faults).extractLsb' 24 8 = 0#8 := by
    simp (disch := decide) only [extractLsb'_responseWord, BitVec.extractLsb'_append_eq_of_le]
    simp
  rw [leBytes_eq_extract, low_byte_fields, hok, hlow, hcause, hfaults, hzero2, hzero3]

/-! ### How many bytes a `READ` puts out (R173, R180 to R182) -/

/-- Step 1 delivers the pending bytes, but no more than were asked for (R173). -/
theorem deliverPending_length {n : Nat} {s : State} {y : State × List Byte} (h : deliverPending n s = .ok y) :
    y.2.length = min n s.partialBytesOut.toNat := by
  obtain ⟨hzero, rfl⟩ | ⟨-, -, out, hread, ⟨-, rfl⟩ | ⟨-, s2, -, rfl⟩⟩ := deliverPending_ok h
  · simp [hzero]
  · rw [(memRead_ok.1 hread).2, Memory.length_readBytes]
  · rw [(memRead_ok.1 hread).2, Memory.length_readBytes]

/-- The loop of step 3 puts out a frame for each frame it counts off (R180). -/
theorem takeWhole_length {n : Nat} {s : State} {out : List Byte} {rem : Nat} {p : ReadProgress}
    (hconv : s.ConvertReady) (hrem : n * s.frameSizeOut.toNat ≤ rem) (h : takeWhole n s out rem = .ok p) :
    p.out.length + p.rem = out.length + rem := by
  induction n generalizing s out rem with
  | zero =>
    cases h
    rfl
  | succ n ih =>
    rw [Nat.succ_mul] at hrem
    obtain ⟨x, hx, hcase⟩ := takeWhole_succ_ok.1 h
    have hf := (takeFrame_frame hx).1
    have hframe : (out ++ x.2).length = out.length + s.frameSizeOut.toNat := by
      obtain ⟨-, -, rfl⟩ := takeFrame_ok.1 hx
      rw [List.length_append, length_convertFrame, hconv.frameSizeOut]
    obtain ⟨-, rfl⟩ | ⟨-, hrest⟩ := hcase
    · dsimp only
      omega
    · have hx' := ih (hconv.of_readFrame hf) (by rw [hf.frameSizeOut]; omega) hrest
      omega

/-- Step 4 puts out what is still wanted, as silence or from one more frame (R181, R182). -/
theorem deliverFrames_length {rem : Nat} {out : List Byte} {s : State} {y : State × List Byte}
    (hconv : s.ConvertReady) (h : deliverFrames rem out s = .ok y) : y.2.length = out.length + rem := by
  obtain ⟨-, p, hp, hcase⟩ := deliverFrames_ok.1 h
  rw [← takeWhole_length hconv (Nat.div_mul_le_self ..) hp]
  obtain ⟨-, htail⟩ | ⟨-, hfrac⟩ := hcase
  · obtain ⟨-, rfl⟩ | ⟨-, s1, -, rfl⟩ := silentTail_ok.1 htail <;>
      rw [List.length_append, List.length_replicate]
  · obtain ⟨hzero, rfl⟩ | ⟨-, x, s1, head, -, -, hhead, rfl⟩ := fractionalFrame_ok.1 hfrac
    · rw [hzero, Nat.add_zero]
    · rw [List.length_append, (memRead_ok.1 hhead).2, Memory.length_readBytes]

/-- A `READ` that gets past its checks puts out as many bytes as were asked for (R102). -/
theorem readBody_length {s : State} {n : Nat} {y : State × List Byte} (h : s.Legal)
    (hconv : s.mustConvert n = true → s.convSupported = true) (hok : readBody n s = .ok y) : y.2.length = n := by
  obtain ⟨x, hx, hcase⟩ := readBody_ok.1 hok
  have hpending := deliverPending_length hx
  obtain ⟨hle, rfl⟩ | ⟨hlt, -, rfl⟩ | ⟨hlt, hunread, hd⟩ := hcase
  · omega
  · rw [List.length_append, List.length_replicate]
    omega
  · obtain ⟨hf, hread⟩ := deliverPending_frame hx
    have hmust : s.mustConvert n = true := by
      rw [hread, hf.1] at hunread
      simpa [State.mustConvert, hlt] using hunread
    rw [deliverFrames_length ((h.convertReady (hconv hmust)).of_readFrame hf) hd]
    omega

/-! ### The response to a command (R100, R102, R205) -/

/-- Only a `READ` that succeeds is followed by data. -/
theorem dataLength_read {len word : Word} (hok : word.getLsbD 0 = true) :
    Response.dataLength (.read len) word = len.toNat := by
  rw [Response.dataLength, if_pos hok]

theorem dataLength_of_not_ok {i : Instr} {word : Word} (hok : word.getLsbD 0 = false) :
    Response.dataLength i word = 0 := by
  cases i with
  | read len => rw [Response.dataLength, hok, if_neg Bool.false_ne_true]
  | _ => rfl

theorem dataLength_of_ne_read {i : Instr} {word : Word} (hi : ∀ len, i ≠ .read len) :
    Response.dataLength i word = 0 := by
  cases i with
  | read len => exact absurd rfl (hi len)
  | _ => rfl

/-- The owner's port shows the response the command ended with, whatever the body did before. -/
theorem respond_ports_owner {s u : State} {r r' : Response} (hports : u.ports = s.ports) (howner : u.owner = s.owner)
    (h : (u.respond r').ports[s.owner]? = some (.responding r)) : r = r' := by
  rw [State.respond_ports, hports, howner, List.getElem?_set_self'] at h
  cases hp : s.ports[s.owner]? with
  | none => simp [hp] at h
  | some ph => simpa [hp, eq_comm] using h

/-- From `s` the command `i` ends in `t` by releasing the guard: the response word shows `FAULT` as it stands, and as
many data bytes follow as that word announces. -/
def EndsInAnswer (i : Instr) (s t : State) : Prop :=
  ∃ (u : State) (r : Response), t = u.respond r ∧ u.ports = s.ports ∧ u.owner = s.owner ∧
    (∃ ok cause, r.word = responseWord ok cause u.fault) ∧ r.data.length = Response.dataLength i r.word

theorem endsInAnswer_fail {i : Instr} {s u : State} {c : Cause} (hports : u.ports = s.ports)
    (howner : u.owner = s.owner) : EndsInAnswer i s (u.respond (failResponse c u.fault)) :=
  ⟨u, _, rfl, hports, howner, ⟨_, _, rfl⟩, (dataLength_of_not_ok (failResponse_ok ..)).symm⟩

theorem endsInAnswer_ok {i : Instr} {s u : State} {data : List Byte} (hports : u.ports = s.ports)
    (howner : u.owner = s.owner) (hdata : data.length = Response.dataLength i (okResponse u.fault data).word) :
    EndsInAnswer i s (u.respond (okResponse u.fault data)) :=
  ⟨u, _, rfl, hports, howner, ⟨_, _, rfl⟩, hdata⟩

/-- In a legal state every command that ends has answered. -/
theorem exec_endsInAnswer {i : Instr} {s t : State} (hlegal : s.Legal) (h : exec i s = .next t) :
    EndsInAnswer i s t := by
  cases i with
  | initIn desc =>
    obtain ⟨c, rfl⟩ | rfl | ⟨d, -, -, -, -, -, -, rfl⟩ := execInitIn_next h
    · exact endsInAnswer_fail rfl rfl
    · exact endsInAnswer_fail (u := s.afterDraw) rfl rfl
    · exact endsInAnswer_ok (u := s.afterDraw.commitInput d) rfl rfl rfl
  | initOut desc =>
    obtain ⟨c, rfl⟩ | rfl | ⟨d, -, -, -, -, rfl⟩ := execInitOut_next h
    · exact endsInAnswer_fail rfl rfl
    · exact endsInAnswer_fail (u := s.afterDraw) rfl rfl
    · exact endsInAnswer_ok (u := s.afterDraw.commitOutput d) rfl rfl rfl
  | write len bytes =>
    obtain ⟨c, rfl⟩ | ⟨-, -, b, u, -, hu, rfl⟩ := execWrite_next h
    · exact endsInAnswer_fail rfl rfl
    · obtain ⟨-, -, -, howner, hports, -⟩ := writeBody_frame hu
      exact endsInAnswer_ok hports howner rfl
  | read len =>
    obtain ⟨c, rfl⟩ | ⟨c, rfl⟩ | ⟨-, -, hconv, y, hy, rfl⟩ := execRead_next h
    · exact endsInAnswer_fail rfl rfl
    · exact endsInAnswer_fail (u := s.recordFault c) rfl rfl
    · obtain ⟨-, -, -, -, -, -, howner, hports, -⟩ := readBody_frame hy
      refine endsInAnswer_ok hports howner ?_
      rw [dataLength_read (okResponse_ok ..), readBody_length hlegal (fun hm => (hconv hm).2) hy]
  | reset =>
    cases h
    exact endsInAnswer_ok (u := s.release) rfl rfl rfl

/-- The response that the owner's port shows after a command in a legal state. -/
theorem exec_response {i : Instr} {s t : State} {r : Response} (hlegal : s.Legal) (h : exec i s = .next t)
    (hr : t.ports[s.owner]? = some (.responding r)) :
    (∃ ok cause, r.word = responseWord ok cause t.fault) ∧ r.data.length = Response.dataLength i r.word := by
  obtain ⟨u, r', rfl, hports, howner, hword, hlen⟩ := exec_endsInAnswer hlegal h
  obtain rfl := respond_ports_owner hports howner hr
  exact ⟨hword, hlen⟩

/-- Settles O40: the data are as long as the response word says, and only a `READ` with `OK = 1` says more than none. -/
theorem onlyReadsReturnData : Obligations.OnlyReadsReturnData := by
  intro i s t r hlegal h hr
  obtain ⟨-, hlen⟩ := exec_response hlegal h hr
  refine ⟨?_, fun hok => ?_, fun hi => ?_⟩
  · rintro len rfl hok
    rw [hlen, dataLength_read hok]
  · exact List.length_eq_zero_iff.1 (hlen.trans (dataLength_of_not_ok hok))
  · exact List.length_eq_zero_iff.1 (hlen.trans (dataLength_of_ne_read hi))

/-- Settles O56: the port knows its command, so the word it reads tells it how many data bytes follow. -/
theorem responsesTravelLowByteFirst : Obligations.ResponsesTravelLowByteFirst := by
  intro i s t r rest hlegal h hr
  obtain ⟨⟨ok, cause, hword⟩, hlen⟩ := exec_response hlegal h hr
  obtain ⟨hok, -, hcause, -, -⟩ := responseWord_fields ok cause t.fault
  constructor
  · rw [Response.toBytes, Response.ok, Response.cause, hword, hok, hcause, leBytes_responseWord]
  · have hdrop : (r.toBytes ++ rest).drop 4 = r.data ++ rest := by
      rw [Response.toBytes, List.append_assoc]
      exact drop_leBytes_append 4 _ _ 0
    rw [Response.ofBytes_eq_some, Response.wordAt_toBytes, ← hlen, ← List.drop_drop, hdrop]
    refine ⟨?_, rfl, (List.take_left' rfl).symm, (List.drop_left' rfl).symm⟩
    rw [List.length_append, Response.length_toBytes]
    omega

end Sys2Proof.Machine
end

section
/-! What becomes of a request an idle port presents (spec/30_encoding.md rule R103, spec/43_guard.md rules R209, R211,
spec/60_exceptions.md rule R219). -/

namespace Sys2Proof.Machine

theorem presentRequest_of_decode_ok {s : State} {p : Nat} {req : Request} {i : Instr} (hp : s.ports[p]? = some .idle)
    (h : decode s.cfg.extMax req = .ok i) : presentRequest p req s = .next (s.setPort p (.waiting req)) := by
  unfold presentRequest
  rw [hp]
  dsimp only
  rw [h]

theorem presentRequest_of_decode_error {s : State} {p : Nat} {req : Request} {e : DecodeError}
    (hp : s.ports[p]? = some .idle) (h : decode s.cfg.extMax req = .error e) (he : e ≠ .payload) :
    presentRequest p req s = .next (s.setPort p (.responding (failResponse .illegalCommand s.fault))) := by
  unfold presentRequest
  rw [hp]
  dsimp only
  rw [h]
  cases e with
  | payload => exact absurd rfl he
  | _ => rfl

theorem step_present {s : State} {p : Nat} {req : Request} (h : s.nextMove = .present p req) :
    step s = presentRequest p req s.afterMove := by
  rw [step, h, applyMove]

/-- Settles O35: either way only the phase of the port is written. -/
theorem presentedRequests : Obligations.PresentedRequests := by
  intro s p req hmove hp
  rw [step_present hmove]
  have hframe (ph : Phase) : SameBlock s (s.afterMove.setPort p ph) := sameBlock_refl s
  refine ⟨fun i hi => ?_, fun e he hne => ?_⟩
  · have hnext := presentRequest_of_decode_ok (s := s.afterMove) hp hi
    exact ⟨_, hnext, rfl, rfl, rfl, hframe _, rfl, rfl, rfl, rfl, rfl⟩
  · have hnext := presentRequest_of_decode_error (s := s.afterMove) hp he hne
    exact ⟨_, hnext, rfl, rfl, rfl, hframe _, rfl, rfl, rfl, rfl, rfl⟩

end Sys2Proof.Machine
end

section
/-! The history of allocations (spec/40_lifecycle.md rule R134): how one more output moves the ownership of a region, and
that every step appends only outputs that its own change of the ownership bits calls for. -/

namespace Sys2Proof.Machine

/-! ### One more output -/

section Trace

variable {tr : List Output} {sp sp' : Space} {b : Bool}

theorem ownedAfter_concat (o : Output) :
    ownedAfter sp (tr ++ [o]).reverse = ownedAfter sp (o :: tr.reverse) := by
  rw [List.reverse_concat]

/-- A region the block does not own can be allocated. -/
theorem ownedAfter_alloc_same (h : ownedAfter sp tr.reverse = some false) (n : Nat) :
    ownedAfter sp (tr ++ [Output.alloc sp n]).reverse = some true := by
  rw [ownedAfter_concat, ownedAfter, h]
  simp

theorem ownedAfter_alloc_other (h : ownedAfter sp tr.reverse = some b) (hne : sp' ≠ sp) (n : Nat) :
    ownedAfter sp (tr ++ [Output.alloc sp' n]).reverse = some b := by
  rw [ownedAfter_concat, ownedAfter, h]
  simp [hne]

/-- Whether or not the block owned the region, freeing it if it did leaves the block without it. -/
theorem ownedAfter_freeIf_same (h : ownedAfter sp tr.reverse = some b) :
    ownedAfter sp (tr ++ if b then [Output.free sp] else []).reverse = some false := by
  cases b with
  | false => rwa [if_neg Bool.false_ne_true, List.append_nil]
  | true =>
    rw [if_pos rfl, ownedAfter_concat, ownedAfter, h]
    simp

theorem ownedAfter_freeIf_other (h : ownedAfter sp tr.reverse = some b) (hne : sp' ≠ sp) (c : Bool) :
    ownedAfter sp (tr ++ if c then [Output.free sp'] else []).reverse = some b := by
  cases c with
  | false => rwa [if_neg Bool.false_ne_true, List.append_nil]
  | true =>
    rw [if_pos rfl, ownedAfter_concat, ownedAfter, h]
    simp [hne]

/-- A response moves no region. -/
theorem ownedAfter_response (h : ownedAfter sp tr.reverse = some b) (p : Nat) (r : Response) :
    ownedAfter sp (tr ++ [Output.response p r]).reverse = some b := by
  rw [ownedAfter_concat, ownedAfter, h]
  rfl

/-- Nor does a word of the status window. -/
theorem ownedAfter_windowWord (h : ownedAfter sp tr.reverse = some b) (n : Fin 18) (w : Word) :
    ownedAfter sp (tr ++ [Output.windowWord n w]).reverse = some b := by
  rw [ownedAfter_concat, ownedAfter, h]
  rfl

end Trace

/-! ### The updates that allocate and free (R123, R127, R130) -/

section Updates

variable {s t : State}

/-- Nothing was handed out and no ownership bit moved. -/
theorem State.HistoryLegal.of_same (h : s.HistoryLegal) (htrace : t.trace = s.trace)
    (hstorage : t.liveStorage = s.liveStorage) (hpfi : t.livePfi = s.livePfi) (hpfo : t.livePfo = s.livePfo) :
    t.HistoryLegal := by
  rwa [State.HistoryLegal, htrace, hstorage, hpfi, hpfo]

/-- `INIT_IN` allocates the two regions of a block that owns neither. -/
theorem State.HistoryLegal.commitInput (h : s.HistoryLegal) (hstorage : s.liveStorage = false)
    (hpfi : s.livePfi = false) (d : Descriptor) : (s.commitInput d).HistoryLegal := by
  obtain ⟨hs, hi, ho⟩ := h
  rw [hstorage] at hs
  rw [hpfi] at hi
  rw [State.HistoryLegal, State.commitInput_trace, List.append_cons]
  exact ⟨ownedAfter_alloc_other (ownedAfter_alloc_same hs _) (by decide) _,
    ownedAfter_alloc_same (ownedAfter_alloc_other hi (by decide) _) _,
    ownedAfter_alloc_other (ownedAfter_alloc_other ho (by decide) _) (by decide) _⟩

/-- `INIT_OUT` frees a previous `PFO` before it allocates the new one. -/
theorem State.HistoryLegal.commitOutput (h : s.HistoryLegal) (d : Descriptor) : (s.commitOutput d).HistoryLegal := by
  obtain ⟨hs, hi, ho⟩ := h
  rw [State.HistoryLegal, State.commitOutput_trace, ← List.append_assoc]
  exact ⟨ownedAfter_alloc_other (ownedAfter_freeIf_other hs (by decide) _) (by decide) _,
    ownedAfter_alloc_other (ownedAfter_freeIf_other hi (by decide) _) (by decide) _,
    ownedAfter_alloc_same (ownedAfter_freeIf_same ho) _⟩

/-- `RESET` and hardware reset free exactly the regions the block owns. -/
theorem State.HistoryLegal.ownedAfter_frees (h : s.HistoryLegal) (sp : Space) :
    ownedAfter sp (s.trace ++ s.frees).reverse = some false := by
  obtain ⟨hs, hi, ho⟩ := h
  rw [State.frees, ← List.append_assoc, ← List.append_assoc]
  cases sp with
  | storage =>
    exact ownedAfter_freeIf_other (ownedAfter_freeIf_other (ownedAfter_freeIf_same hs) (by decide) _) (by decide) _
  | pfi =>
    exact ownedAfter_freeIf_other (ownedAfter_freeIf_same (ownedAfter_freeIf_other hi (by decide) _)) (by decide) _
  | pfo =>
    exact ownedAfter_freeIf_same (ownedAfter_freeIf_other (ownedAfter_freeIf_other ho (by decide) _) (by decide) _)

theorem State.HistoryLegal.release (h : s.HistoryLegal) : s.release.HistoryLegal :=
  ⟨h.ownedAfter_frees .storage, h.ownedAfter_frees .pfi, h.ownedAfter_frees .pfo⟩

theorem State.HistoryLegal.hardReset (h : s.HistoryLegal) : s.hardReset.HistoryLegal :=
  ⟨h.ownedAfter_frees .storage, h.ownedAfter_frees .pfi, h.ownedAfter_frees .pfo⟩

/-! ### Every command and every move -/

/-- Only `INIT_IN` needs that the state is legal: it allocates `PFI` where it has tested that there is no storage. -/
theorem exec_historyLegal {i : Instr} (hlegal : s.Legal) (h : s.HistoryLegal) (hstep : exec i s = .next t) :
    t.HistoryLegal := by
  cases i with
  | initIn desc =>
    obtain ⟨c, rfl⟩ | rfl | ⟨d, -, hfree, -, -, -, -, rfl⟩ := execInitIn_next hstep
    · exact h
    · exact h
    · exact State.HistoryLegal.commitInput (s := s.afterDraw) h hfree (hlegal.input.1.trans hfree) d
  | initOut desc =>
    obtain ⟨c, rfl⟩ | rfl | ⟨d, -, -, -, -, rfl⟩ := execInitOut_next hstep
    · exact h
    · exact h
    · exact State.HistoryLegal.commitOutput (s := s.afterDraw) h d
  | write len bytes =>
    obtain ⟨⟨-, -, -, hpfo, -⟩, ⟨-, -, -, -, hstorage, hpfi⟩, -, -, -, htrace⟩ := execWrite_frame hstep
    exact h.of_same htrace hstorage hpfi hpfo
  | read len =>
    obtain ⟨⟨-, -, -, -, -, hstorage, hpfi, -⟩, -, -, -, hpfo, -, -, htrace⟩ := execRead_frame hstep
    exact h.of_same htrace hstorage hpfi hpfo
  | reset =>
    cases hstep
    exact h.release

theorem applyMove_historyLegal {m : Move} (hlegal : s.Legal) (h : s.HistoryLegal) (hstep : applyMove m s = .next t) :
    t.HistoryLegal := by
  obtain ⟨p, req, -, hm⟩ | ⟨p, -, hm⟩ | ⟨i, -, -, hm⟩ | ⟨p, -, hm⟩ | ⟨-, rfl⟩ | ⟨n, -, rfl⟩ | ⟨n, v, -, rfl⟩ :=
    applyMove_next hstep
  · obtain ⟨-, ⟨i, -, rfl⟩ | ⟨e, -, -, rfl⟩⟩ := presentRequest_next hm <;> exact h
  · obtain ⟨req, -, ⟨-, rfl⟩ | ⟨-, rfl⟩⟩ := tryAcquire_next hm <;> exact h
  · exact exec_historyLegal hlegal h hm
  · obtain ⟨r, -, rfl⟩ := handOver_next hm
    obtain ⟨hs, hi, ho⟩ := h
    exact ⟨ownedAfter_response hs p r, ownedAfter_response hi p r, ownedAfter_response ho p r⟩
  · exact h.hardReset
  · obtain ⟨hs, hi, ho⟩ := h
    exact ⟨ownedAfter_windowWord hs n _, ownedAfter_windowWord hi n _, ownedAfter_windowWord ho n _⟩
  · exact h

end Updates

/-- Settles O18: the move is taken from the schedule, which the history does not name, and each move keeps the
history. -/
theorem stepKeepsAllocationHistory : Obligations.StepKeepsAllocationHistory :=
  fun _ _ hlegal h hstep => applyMove_historyLegal hlegal.afterMove h hstep

end Sys2Proof.Machine
end

section
/-! The lifecycle commands outcome by outcome: `INIT_IN`, `INIT_OUT` and `RESET` succeed with exactly their effects, and a
failure writes nothing (spec/40_lifecycle.md rules R120 to R132, spec/60_exceptions.md rule R218). -/

namespace Sys2Proof.Machine

/-! ### A failure writes nothing (R215, R220) -/

section Failures

variable {s : State} {i : Instr} {c : Cause}

theorem failsWith_of_raiseFail (h : exec i s = raiseFail c s) : FailsWith c i s :=
  ⟨_, h, ⟨rfl, rfl, rfl⟩, sameBlock_refl s, rfl, ⟨rfl, rfl, rfl⟩, rfl⟩

/-- Asking the allocator writes nothing either (R124, R128). -/
theorem failsWith_of_raiseFail_afterDraw (h : exec i s = raiseFail c s.afterDraw) : FailsWith c i s :=
  ⟨_, h, ⟨rfl, rfl, rfl⟩, sameBlock_refl s, rfl, ⟨rfl, rfl, rfl⟩, rfl⟩

end Failures

/-! ### `INIT_IN` (R120 to R124) -/

section InitIn

variable {s : State} {d : Descriptor}

theorem exec_initIn_live (desc : Option Descriptor) (hlive : s.liveStorage = true) :
    exec (.initIn desc) s = raiseFail .alreadyInitialized s :=
  if_pos hlive

theorem exec_initIn_null (hfree : s.liveStorage = false) :
    exec (.initIn none) s = raiseFail .invalidArgument s :=
  if_neg (ne_true_of_eq_false hfree)

theorem exec_initIn_invalid (hfree : s.liveStorage = false) (hvalid : inputFormatValid s.cfg d = false) :
    exec (.initIn (some d)) s = raiseFail .invalidArgument s :=
  (if_neg (ne_true_of_eq_false hfree)).trans (if_pos hvalid)

/-- The size limits and the allocator answer alike (R121). -/
theorem exec_initIn_denied (hfree : s.liveStorage = false) (hvalid : inputFormatValid s.cfg d = true)
    (hdenied : s.cfg.frameMax < d.frameSize ∨ s.cfg.storageMax < capacityFor s.cfg d ∨ s.grantNow = false) :
    exec (.initIn (some d)) s = raiseFail .allocationFailure s.afterDraw :=
  (if_neg (ne_true_of_eq_false hfree)).trans ((if_neg (ne_false_of_eq_true hvalid)).trans (if_pos hdenied))

theorem exec_initIn_granted (hfree : s.liveStorage = false) (hvalid : inputFormatValid s.cfg d = true)
    (hframe : d.frameSize ≤ s.cfg.frameMax) (hstorage : capacityFor s.cfg d ≤ s.cfg.storageMax)
    (hgrant : s.grantNow = true) :
    exec (.initIn (some d)) s = .next ((s.afterDraw.commitInput d).respond (okResponse s.fault [])) := by
  have hfits : ¬(s.cfg.frameMax < d.frameSize ∨ s.cfg.storageMax < capacityFor s.cfg d ∨ s.grantNow = false) := by
    simp [hframe, hstorage, hgrant]
  exact (if_neg (ne_true_of_eq_false hfree)).trans ((if_neg (ne_false_of_eq_true hvalid)).trans (if_neg hfits))

/-- The sizes that `INIT_IN` computes fit their registers, and the storage is a whole number of frames (R27, R28). -/
theorem commitInput_sizes (hcfg : s.cfg.Legal) (hframe : d.frameSize ≤ s.cfg.frameMax)
    (hstorage : capacityFor s.cfg d ≤ s.cfg.storageMax) :
    (s.commitInput d).frameSizeIn.toNat = d.frameSize ∧ (s.commitInput d).capacity.toNat = capacityFor s.cfg d ∧
      (s.commitInput d).numFrames.toNat = capacityFor s.cfg d / d.frameSize := by
  obtain ⟨-, hmax, hframeMax, -⟩ := hcfg
  exact ⟨toNat_ofNat_of_le (hframe.trans hframeMax) hmax, toNat_ofNat_of_le hstorage hmax,
    toNat_ofNat_of_le ((Nat.div_le_self _ _).trans hstorage) hmax⟩

end InitIn

/-- Settles O10: the state after the command is the committed one, whose words hold the sizes of R123 because these
are within the limits of R9. -/
theorem initInCompletes : Obligations.InitInCompletes := by
  intro s d hcfg hfree hvalid hframe hstorage hgrant
  obtain ⟨hsize, hcap, hnum⟩ := commitInput_sizes (s := s.afterDraw) hcfg hframe hstorage
  have hslots := capacityFor_div_frameSize s.cfg (frameSize_pos_of_inputFormatValid hvalid)
  refine ⟨_, exec_initIn_granted hfree hvalid hframe hstorage hgrant, ⟨rfl, rfl, rfl⟩, rfl, hsize, ?_, ?_,
    hnum.trans hslots, rfl, fun _ => rfl, rfl, fun _ => rfl, rfl, rfl, rfl, rfl, rfl, ⟨rfl, rfl, rfl, rfl, rfl⟩, rfl,
    ⟨rfl, rfl, rfl⟩, ?_⟩
  · rw [State.respond_capacity, State.respond_frameSizeIn, hcap, hsize]
    rfl
  · rw [State.respond_numFrames, State.respond_capacity, State.respond_frameSizeIn, hnum, hcap, hsize]
  · rw [State.respond_capacity, State.respond_frameSizeIn, hcap, hsize]
    rfl

/-- Settles O11: each check of R120 ends the command before the next one. -/
theorem initInFailures : Obligations.InitInFailures :=
  ⟨fun _ desc hlive => failsWith_of_raiseFail (exec_initIn_live desc hlive),
    fun _ hfree => failsWith_of_raiseFail (exec_initIn_null hfree),
    fun _ _ hfree hvalid => failsWith_of_raiseFail (exec_initIn_invalid hfree hvalid),
    fun _ _ hfree hvalid hdenied => failsWith_of_raiseFail_afterDraw (exec_initIn_denied hfree hvalid hdenied)⟩

/-! ### `INIT_OUT` (R125 to R128) -/

section InitOut

variable {s : State} {d : Descriptor}

theorem exec_initOut_null (s : State) : exec (.initOut none) s = raiseFail .invalidArgument s := rfl

theorem exec_initOut_invalid (hvalid : outputFormatValid s.cfg d = false) :
    exec (.initOut (some d)) s = raiseFail .invalidArgument s :=
  if_pos hvalid

theorem exec_initOut_denied (hvalid : outputFormatValid s.cfg d = true)
    (hdenied : s.cfg.frameMax < d.frameSize ∨ s.grantNow = false) :
    exec (.initOut (some d)) s = raiseFail .allocationFailure s.afterDraw :=
  (if_neg (ne_false_of_eq_true hvalid)).trans (if_pos hdenied)

theorem exec_initOut_granted (hvalid : outputFormatValid s.cfg d = true) (hframe : d.frameSize ≤ s.cfg.frameMax)
    (hgrant : s.grantNow = true) :
    exec (.initOut (some d)) s = .next ((s.afterDraw.commitOutput d).respond (okResponse s.fault [])) := by
  have hfits : ¬(s.cfg.frameMax < d.frameSize ∨ s.grantNow = false) := by simp [hframe, hgrant]
  exact (if_neg (ne_false_of_eq_true hvalid)).trans (if_neg hfits)

/-- The size of an output frame fits its register (R26). -/
theorem commitOutput_frameSizeOut_toNat (hcfg : s.cfg.Legal) (hframe : d.frameSize ≤ s.cfg.frameMax) :
    (s.commitOutput d).frameSizeOut.toNat = d.frameSize := by
  obtain ⟨-, hmax, hframeMax, -⟩ := hcfg
  exact toNat_ofNat_of_le (hframe.trans hframeMax) hmax

end InitOut

/-- Settles O12: the state after the command is the committed one, whatever the block owned before. -/
theorem initOutCompletes : Obligations.InitOutCompletes := by
  intro s d hcfg hvalid hframe hgrant
  have hsize := commitOutput_frameSizeOut_toNat (s := s.afterDraw) hcfg hframe
  refine ⟨_, exec_initOut_granted hvalid hframe hgrant, ⟨rfl, rfl, rfl⟩, rfl, hsize, rfl, fun _ => rfl, rfl, rfl, rfl,
    rfl, ⟨rfl, rfl, rfl, rfl, rfl, rfl, rfl, rfl, rfl⟩, rfl, ⟨rfl, rfl, rfl⟩, ?_⟩
  rw [State.respond_frameSizeOut, hsize]
  rfl

/-- Settles O13: each check of R125 ends the command before the next one. -/
theorem initOutFailures : Obligations.InitOutFailures :=
  ⟨fun s => failsWith_of_raiseFail (exec_initOut_null s),
    fun _ _ hvalid => failsWith_of_raiseFail (exec_initOut_invalid hvalid),
    fun _ _ hvalid hdenied => failsWith_of_raiseFail_afterDraw (exec_initOut_denied hvalid hdenied)⟩

/-! ### `RESET` (R130 to R132) -/

section Reset

variable {s : State}

theorem exec_reset (s : State) : exec .reset s = .next (s.release.respond (okResponse s.fault [])) := rfl

/-- A block that owns no region has nothing to free. -/
theorem State.frees_eq_nil (hstorage : s.liveStorage = false) (hpfi : s.livePfi = false) (hpfo : s.livePfo = false) :
    s.frees = [] := by
  simp [State.frees, hstorage, hpfi, hpfo]

/-- A memory of size zero is empty. -/
theorem Memory.eq_nil_of_within_zero {m : Memory} (h : Memory.within 0 m = true) : m = [] :=
  List.eq_nil_iff_forall_not_mem.2 fun c hc => Nat.not_lt_zero _ (Memory.within_iff.1 h c hc)

/-- A legal block that owns no region holds zero in every register that `RESET` writes, and its memories are empty
(R44 items 2 and 5). -/
theorem State.Legal.sameBlock_release (h : s.Legal) (hstorage : s.liveStorage = false) (hpfo : s.livePfo = false) :
    SameBlock s s.release := by
  obtain ⟨hpfi, hin⟩ := h.input
  obtain ⟨hout, -⟩ := h.output
  rw [hstorage] at hpfi
  rw [if_neg (ne_true_of_eq_false hstorage)] at hin
  rw [if_neg (ne_true_of_eq_false hpfo)] at hout
  obtain ⟨hsizeIn, hnum, hcap, hpartialIn, hwrite, hread, hfmtIn⟩ := hin
  obtain ⟨hsizeOut, hpartialOut, hfmtOut⟩ := hout
  obtain ⟨-, -, -, hstorageMem, hpfiMem, -, hpfoMem⟩ := h.memory
  rw [State.regionSize, if_neg (ne_true_of_eq_false hstorage)] at hstorageMem
  rw [State.heldIn_of_zero hpartialIn] at hpfiMem
  exact ⟨⟨hwrite.symm, hread.symm⟩,
    ⟨hpartialIn.symm, hsizeIn.symm, hnum.symm, hcap.symm, hfmtIn.symm, hstorage.symm, hpfi.symm,
      (Memory.eq_nil_of_within_zero hstorageMem).symm, (Memory.eq_nil_of_within_zero hpfiMem).symm⟩,
    hpartialOut.symm, hsizeOut.symm, hfmtOut.symm, hpfo.symm, (hpfoMem hpartialOut).symm⟩

end Reset

/-- Settles O14: `RESET` makes no check, and its effects are those of R130. -/
theorem resetCompletes : Obligations.ResetCompletes :=
  fun s => ⟨_, exec_reset s, ⟨rfl, rfl, rfl⟩, rfl, rfl, rfl, rfl, rfl, rfl, fun _ => ⟨rfl, rfl, rfl⟩, rfl, rfl, rfl,
    rfl, rfl, rfl, rfl, rfl, rfl, rfl, rfl, ⟨rfl, rfl, rfl⟩, rfl, rfl, rfl⟩

/-- Settles O15: after a `RESET` no region is live, so the second one has nothing to free; and on a legal block without
regions the first one has neither. -/
theorem resetIsIdempotent : Obligations.ResetIsIdempotent := by
  refine ⟨fun s => ?_, fun s h hstorage hpfi hpfo => ?_⟩
  · have hnone : (s.release.respond (okResponse s.fault [])).frees = [] := State.frees_eq_nil rfl rfl rfl
    exact ⟨_, _, exec_reset s, exec_reset _, ⟨rfl, rfl, rfl⟩, ⟨rfl, rfl, rfl⟩, rfl, rfl, sameBlock_refl s.release, rfl,
      (congrArg _ hnone).trans (List.append_nil _)⟩
  · have hnone := State.frees_eq_nil hstorage hpfi hpfo
    exact ⟨_, exec_reset s, h.sameBlock_release hstorage hpfo, rfl, (congrArg _ hnone).trans (List.append_nil _)⟩

end Sys2Proof.Machine
end

section
/-! The lifecycle table (spec/40_lifecycle.md rule R133): for each command, which response the owner's port shows and how
the ownership bits of `STORAGE` and `PFO` move with it. -/

namespace Sys2Proof.Machine

/-! ### The response that is shown (R100, R101) -/

section Response

variable {s t u : State} {r r' : Response} {i : Instr}

/-- The owner's port shows the response the body released the guard with. -/
theorem response_eq_of_next (h : (.next (u.respond r') : Result) = .next t) (hports : u.ports = s.ports)
    (howner : u.owner = s.owner) (hr : t.ports[s.owner]? = some (.responding r)) : r = r' := by
  obtain rfl := Host.Outcome.next.inj h
  exact respond_ports_owner hports howner hr

/-- A command whose outcome is known shows the response it ended with. -/
theorem response_eq_of_exec (heq : exec i s = .next (u.respond r')) (hports : u.ports = s.ports)
    (howner : u.owner = s.owner) (h : exec i s = .next t) (hr : t.ports[s.owner]? = some (.responding r)) : r = r' :=
  response_eq_of_next (heq.symm.trans h) hports howner hr

theorem failResponse_not_ok {c : Cause} {faults : BitVec 8} : (failResponse c faults).ok ≠ true :=
  ne_true_of_eq_false (failResponse_ok c faults)

theorem okResponse_not_failed {faults : BitVec 8} {data : List Byte} : (okResponse faults data).ok ≠ false :=
  ne_false_of_eq_true (okResponse_ok faults data)

theorem ne_failResponse_of_cause {c : Cause} (h : r.cause ≠ causeCode c) (faults : BitVec 8) :
    r ≠ failResponse c faults := by
  rintro rfl
  exact h (failResponse_cause c faults)

end Response

/-! ### `INIT_IN`, `INIT_OUT` and `RESET` (R120, R125, R130) -/

section Lifecycle

variable {s t : State} {r : Response} {desc : Option Descriptor}

/-- An `INIT_IN` that fails leaves the ownership bits alone, and one that succeeds has passed every check and owns the
storage. -/
theorem initIn_outcome (h : execInitIn desc s = .next t) (hr : t.ports[s.owner]? = some (.responding r)) :
    (r.ok = false → t.liveStorage = s.liveStorage ∧ t.livePfo = s.livePfo) ∧
    (r.ok = true → (t.liveStorage = true ∧ t.livePfo = s.livePfo) ∧ s.liveStorage = false ∧
      ∃ d, desc = some d ∧ inputFormatValid s.cfg d = true ∧ d.frameSize ≤ s.cfg.frameMax ∧
        capacityFor s.cfg d ≤ s.cfg.storageMax ∧ s.grantNow = true) := by
  obtain ⟨c, rfl⟩ | rfl | ⟨d, hdesc, hfree, hvalid, hframe, hstorage, hgrant, rfl⟩ := execInitIn_next h
  · obtain rfl := respond_ports_owner rfl rfl hr
    exact ⟨fun _ => ⟨rfl, rfl⟩, fun hok => absurd hok failResponse_not_ok⟩
  · obtain rfl := respond_ports_owner (u := s.afterDraw) rfl rfl hr
    exact ⟨fun _ => ⟨rfl, rfl⟩, fun hok => absurd hok failResponse_not_ok⟩
  · obtain rfl := respond_ports_owner (u := s.afterDraw.commitInput d) rfl rfl hr
    exact ⟨fun hfail => absurd hfail okResponse_not_failed,
      fun _ => ⟨⟨rfl, rfl⟩, hfree, d, hdesc, hvalid, hframe, hstorage, hgrant⟩⟩

/-- An `INIT_OUT` that fails leaves the ownership bits alone, and one that succeeds has passed every check and owns
`PFO`. -/
theorem initOut_outcome (h : execInitOut desc s = .next t) (hr : t.ports[s.owner]? = some (.responding r)) :
    (r.ok = false → t.liveStorage = s.liveStorage ∧ t.livePfo = s.livePfo) ∧
    (r.ok = true → (t.liveStorage = s.liveStorage ∧ t.livePfo = true) ∧
      ∃ d, desc = some d ∧ outputFormatValid s.cfg d = true ∧ d.frameSize ≤ s.cfg.frameMax ∧ s.grantNow = true) := by
  obtain ⟨c, rfl⟩ | rfl | ⟨d, hdesc, hvalid, hframe, hgrant, rfl⟩ := execInitOut_next h
  · obtain rfl := respond_ports_owner rfl rfl hr
    exact ⟨fun _ => ⟨rfl, rfl⟩, fun hok => absurd hok failResponse_not_ok⟩
  · obtain rfl := respond_ports_owner (u := s.afterDraw) rfl rfl hr
    exact ⟨fun _ => ⟨rfl, rfl⟩, fun hok => absurd hok failResponse_not_ok⟩
  · obtain rfl := respond_ports_owner (u := s.afterDraw.commitOutput d) rfl rfl hr
    exact ⟨fun hfail => absurd hfail okResponse_not_failed,
      fun _ => ⟨⟨rfl, rfl⟩, d, hdesc, hvalid, hframe, hgrant⟩⟩

/-- An `INIT_IN` whose checks all pass succeeds (R120 to R122). -/
theorem initIn_ok_of_checks {d : Descriptor} (hfree : s.liveStorage = false) (hvalid : inputFormatValid s.cfg d = true)
    (hframe : d.frameSize ≤ s.cfg.frameMax) (hstorage : capacityFor s.cfg d ≤ s.cfg.storageMax)
    (hgrant : s.grantNow = true) (h : exec (.initIn (some d)) s = .next t)
    (hr : t.ports[s.owner]? = some (.responding r)) : r.ok = true := by
  rw [response_eq_of_exec (exec_initIn_granted hfree hvalid hframe hstorage hgrant) rfl rfl h hr, okResponse_ok]

/-- An `INIT_OUT` whose checks all pass succeeds (R125, R126). -/
theorem initOut_ok_of_checks {d : Descriptor} (hvalid : outputFormatValid s.cfg d = true)
    (hframe : d.frameSize ≤ s.cfg.frameMax) (hgrant : s.grantNow = true) (h : exec (.initOut (some d)) s = .next t)
    (hr : t.ports[s.owner]? = some (.responding r)) : r.ok = true := by
  rw [response_eq_of_exec (exec_initOut_granted hvalid hframe hgrant) rfl rfl h hr, okResponse_ok]

end Lifecycle

/-! ### `WRITE` (R150) -/

section Write

variable {s t : State} {r : Response} {len : Word} {bytes : Option (List Byte)}

theorem exec_write_uninitialized (hfree : s.liveStorage = false) (len : Word) (bytes : Option (List Byte)) :
    exec (.write len bytes) s = raiseFail .uninitialized s :=
  if_pos hfree

/-- With storage `WRITE` can only fail for its operands. -/
theorem write_live_cause (hlive : s.liveStorage = true) (h : execWrite len bytes s = .next t)
    (hr : t.ports[s.owner]? = some (.responding r)) : r.cause ≠ causeCode .uninitialized := by
  unfold execWrite at h
  rw [if_neg (ne_false_of_eq_true hlive)] at h
  split_ifs at h with hlen
  · rw [response_eq_of_next h rfl rfl hr, failResponse_cause]
    decide
  · cases bytes with
    | none =>
      rw [response_eq_of_next h rfl rfl hr, failResponse_cause]
      decide
    | some b =>
      obtain ⟨y, hy, rfl⟩ := finish_next.1 h
      obtain ⟨u, hu, rfl⟩ := except_map_ok.1 hy
      obtain ⟨-, -, -, howner, hports, -⟩ := writeBody_frame hu
      rw [respond_ports_owner hports howner hr, okResponse_cause]
      decide

theorem write_uninitialized_iff (h : exec (.write len bytes) s = .next t)
    (hr : t.ports[s.owner]? = some (.responding r)) :
    s.liveStorage = false ↔ r = failResponse .uninitialized s.fault := by
  refine ⟨fun hfree => response_eq_of_exec (exec_write_uninitialized hfree len bytes) rfl rfl h hr, fun heq => ?_⟩
  exact Bool.eq_false_of_not_eq_true fun hlive => ne_failResponse_of_cause (write_live_cause hlive h hr) _ heq

end Write

/-! ### `READ` (R170, R171, R174) -/

section Read

variable {s t : State} {r : Response} {len : Word}

theorem exec_read_uninitialized (hfree : s.liveStorage = false) (len : Word) :
    exec (.read len) s = raiseFail .uninitialized s :=
  if_pos hfree

/-- With storage `READ` can only fail for its operand, or fault. -/
theorem read_live_cause (hlive : s.liveStorage = true) (h : execRead len s = .next t)
    (hr : t.ports[s.owner]? = some (.responding r)) : r.cause ≠ causeCode .uninitialized := by
  rw [execRead, if_neg (ne_false_of_eq_true hlive)] at h
  split_ifs at h with hlen hnoOut hnoConv
  · rw [response_eq_of_next h rfl rfl hr, failResponse_cause]
    decide
  · rw [response_eq_of_next (u := s.recordFault .noOut) h rfl rfl hr, failResponse_cause]
    decide
  · rw [response_eq_of_next (u := s.recordFault .conv) h rfl rfl hr, failResponse_cause]
    decide
  · obtain ⟨y, hy, rfl⟩ := finish_next.1 h
    obtain ⟨-, -, -, -, -, -, howner, hports, -⟩ := readBody_frame hy
    rw [respond_ports_owner hports howner hr, okResponse_cause]
    decide

theorem read_uninitialized_iff (h : exec (.read len) s = .next t) (hr : t.ports[s.owner]? = some (.responding r)) :
    s.liveStorage = false ↔ r = failResponse .uninitialized s.fault := by
  refine ⟨fun hfree => response_eq_of_exec (exec_read_uninitialized hfree len) rfl rfl h hr, fun heq => ?_⟩
  exact Bool.eq_false_of_not_eq_true fun hlive => ne_failResponse_of_cause (read_live_cause hlive h hr) _ heq

/-- Without kept bytes a frame is wanted as soon as a byte is (R171). -/
theorem mustConvert_iff_of_nothing_kept {n : Nat} (hkept : s.partialBytesOut = 0#32) :
    s.mustConvert n = true ↔ 0 < n ∧ s.readFrameId ≠ s.writeFrameId := by
  simp [State.mustConvert, hkept]

/-- Nothing kept and nothing unread: the body delivers silence and writes nothing (R174). -/
theorem readBody_empty {n : Nat} (hn : 0 < n) (hkept : s.partialBytesOut = 0#32)
    (hempty : s.readFrameId = s.writeFrameId) : readBody n s = .ok (s, zeros n) := by
  have hnone : s.partialBytesOut.toNat = 0 := by rw [hkept]; rfl
  exact readBody_ok.2 ⟨(s, []), if_pos hkept, .inr (.inl ⟨hnone ▸ hn, hempty, by rw [hnone]; rfl⟩)⟩

/-- An empty ring with nothing kept answers silence, with or without an output side (R174). -/
theorem exec_read_empty (hlive : s.liveStorage = true) (hlen : len ≠ 0#32) (hkept : s.partialBytesOut = 0#32)
    (hempty : s.readFrameId = s.writeFrameId) :
    exec (.read len) s = .next (s.respond (okResponse s.fault (zeros len.toNat))) := by
  have hmust : ¬s.mustConvert len.toNat = true := fun hm => ((mustConvert_iff_of_nothing_kept hkept).1 hm).2 hempty
  rw [exec, execRead, if_neg (ne_false_of_eq_true hlive), if_neg hlen, if_neg fun h => hmust h.1,
    if_neg fun h => hmust h.1, readBody_empty (BitVec.toNat_pos_of_ne_zero hlen) hkept hempty, finish_ok]

/-- An unread frame that must be converted without an output side is the fault `F_NOOUT` (R171). -/
theorem exec_read_noOut (hlive : s.liveStorage = true) (hlen : len ≠ 0#32) (hpfo : s.livePfo = false)
    (hmust : s.mustConvert len.toNat = true) : exec (.read len) s = raiseFault .noOut s := by
  rw [exec, execRead, if_neg (ne_false_of_eq_true hlive), if_neg hlen, if_pos ⟨hmust, hpfo⟩]

/-- Without an output side nothing is kept (R44 item 5). -/
theorem State.Legal.nothing_kept_of_inputOnly (h : s.Legal) (hpfo : s.livePfo = false) : s.partialBytesOut = 0#32 := by
  obtain ⟨hout, -⟩ := h.output
  rw [if_neg (ne_true_of_eq_false hpfo)] at hout
  exact hout.2.1

/-- What a `READ` of at least one byte answers on an input-only block (R133). -/
theorem read_inputOnly (hlegal : s.Legal) (hlive : s.liveStorage = true) (hpfo : s.livePfo = false)
    (hlen : len ≠ 0#32) (h : exec (.read len) s = .next t) (hr : t.ports[s.owner]? = some (.responding r)) :
    r = if s.readFrameId = s.writeFrameId then okResponse s.fault (zeros len.toNat)
      else failResponse .fault (s.fault ||| 0x01#8) := by
  have hkept := hlegal.nothing_kept_of_inputOnly hpfo
  split_ifs with hempty
  · exact response_eq_of_exec (exec_read_empty hlive hlen hkept hempty) rfl rfl h hr
  · have hmust := (mustConvert_iff_of_nothing_kept hkept).2 ⟨BitVec.toNat_pos_of_ne_zero hlen, hempty⟩
    exact response_eq_of_exec (u := s.recordFault .noOut) (exec_read_noOut hlive hlen hpfo hmust) rfl rfl h hr

end Read

/-- Settles O17, command by command: the rows of the other commands do not speak of this one. -/
theorem lifecycleTable : Obligations.LifecycleTable := by
  intro i s t r h hr
  cases i with
  | initIn desc =>
    obtain ⟨hkept, hmoved⟩ := initIn_outcome h hr
    refine ⟨hkept, fun _ hi => ?_, nofun, nofun, nofun, nofun⟩
    cases hi
    refine ⟨fun hok => (hmoved hok).1, fun hlive => response_eq_of_exec (exec_initIn_live desc hlive) rfl rfl h hr,
      fun hok => (hmoved hok).2, ?_⟩
    rintro ⟨hfree, d, rfl, hvalid, hframe, hstorage, hgrant⟩
    exact initIn_ok_of_checks hfree hvalid hframe hstorage hgrant h hr
  | initOut desc =>
    obtain ⟨hkept, hmoved⟩ := initOut_outcome h hr
    refine ⟨hkept, nofun, fun _ hi => ?_, nofun, nofun, nofun⟩
    cases hi
    refine ⟨fun hok => (hmoved hok).1, fun hok => (hmoved hok).2, ?_⟩
    rintro ⟨d, rfl, hvalid, hframe, hgrant⟩
    exact initOut_ok_of_checks hvalid hframe hgrant h hr
  | write len bytes =>
    obtain ⟨⟨-, -, -, hpfo, -⟩, ⟨-, -, -, -, hstorage, -⟩, -⟩ := execWrite_frame h
    refine ⟨fun _ => ⟨hstorage, hpfo⟩, nofun, nofun, nofun, fun _ _ hi => ?_, nofun⟩
    cases hi
    exact ⟨hstorage, hpfo, write_uninitialized_iff h hr⟩
  | read len =>
    obtain ⟨⟨-, -, -, -, -, hstorage, -⟩, -, -, -, hpfo, -⟩ := execRead_frame h
    refine ⟨fun _ => ⟨hstorage, hpfo⟩, nofun, nofun, nofun, nofun, fun _ hi => ?_⟩
    cases hi
    exact ⟨hstorage, hpfo, read_uninitialized_iff h hr,
      fun hlegal hlive hnoOut hlen => read_inputOnly hlegal hlive hnoOut hlen h hr⟩
  | reset =>
    have hok : r.ok = true := by rw [response_eq_of_exec (exec_reset s) rfl rfl h hr, okResponse_ok]
    refine ⟨fun hfail => Bool.noConfusion (hok.symm.trans hfail), nofun, nofun, fun _ => ?_, nofun, nofun⟩
    cases h
    exact ⟨hok, rfl, rfl⟩

end Sys2Proof.Machine
end

section
/-! The ring as a queue (spec/20_memory.md rules R65, R66, spec/41_write.md rules R152, R153): what one advance of the
write cursor does to the unread count, and what one commit does to the unread frames. -/

namespace Sys2Proof.Machine

/-! ### Distances on a ring of `n` slots (R65) -/

/-- A position that went past the last slot at most once. -/
theorem mod_eq_of_lt_two_mul {a n : Nat} (h : a < 2 * n) : a % n = if a < n then a else a - n := by
  split_ifs with hlt
  · exact Nat.mod_eq_of_lt hlt
  · rw [Nat.mod_eq_sub_mod (Nat.not_lt.1 hlt), Nat.mod_eq_of_lt (by omega)]

/-- `u` is the distance from `r` up to `w` exactly when `u` slots on from `r` stands `w`. -/
theorem ring_distance_eq_iff {n w r u : Nat} (hw : w < n) (hr : r < n) (hu : u < n) :
    (w + n - r) % n = u ↔ (r + u) % n = w := by
  rw [mod_eq_of_lt_two_mul (show w + n - r < 2 * n by omega), mod_eq_of_lt_two_mul (show r + u < 2 * n by omega)]
  split_ifs <;> omega

/-- Slots at different distances below `n` are different slots. -/
theorem ring_slot_inj {n r i j : Nat} (hr : r < n) (hi : i < n) (hj : j < n) (h : (r + i) % n = (r + j) % n) :
    i = j := by
  have hslot := Nat.mod_lt (r + j) (Nat.zero_lt_of_lt hr)
  exact ((ring_distance_eq_iff hslot hr hi).2 h).symm.trans ((ring_distance_eq_iff hslot hr hj).2 rfl)

/-! ### One advance of the write cursor (R152) -/

section Advance

variable {s : State} (hw : s.writeFrameId.toNat < s.numFrames.toNat) (hr : s.readFrameId.toNat < s.numFrames.toNat)

include hw hr

theorem State.unread_le : s.unread ≤ s.numFrames.toNat - 1 :=
  (ring_distance hw hr).1

theorem State.unread_lt : s.unread < s.numFrames.toNat := by
  have := State.unread_le hw hr
  omega

/-- The write cursor stands `unread` slots on from the read cursor (R50). -/
theorem State.slot_after_unread : (s.readFrameId.toNat + s.unread) % s.numFrames.toNat = s.writeFrameId.toNat :=
  (ring_distance_eq_iff hw hr (State.unread_lt hw hr)).1 rfl

/-- The cursors would collide exactly when the ring holds as many frames as it can. -/
theorem State.collision_iff_full :
    (s.writeFrameId.toNat + 1) % s.numFrames.toNat = s.readFrameId.toNat ↔ s.unread = s.numFrames.toNat - 1 := by
  have hlt := State.unread_lt hw hr
  have hslot := State.slot_after_unread hw hr
  rw [mod_eq_of_lt_two_mul (by omega)] at hslot ⊢
  split_ifs at hslot ⊢ <;> omega

omit hr in
theorem State.advanceWrite_writeFrameId_toNat :
    s.advanceWrite.writeFrameId.toNat = (s.writeFrameId.toNat + 1) % s.numFrames.toNat :=
  nextSlot_toNat _ (ne_zero_of_toNat_pos (Nat.zero_lt_of_lt hw))

omit hr in
theorem State.advanceWrite_readFrameId_toNat :
    s.advanceWrite.readFrameId.toNat =
      if (s.writeFrameId.toNat + 1) % s.numFrames.toNat = s.readFrameId.toNat then
        (s.readFrameId.toNat + 1) % s.numFrames.toNat
      else s.readFrameId.toNat := by
  have hnum := ne_zero_of_toNat_pos (Nat.zero_lt_of_lt hw)
  rw [State.advanceWrite_readFrameId, ← nextSlot_toNat _ hnum, ← nextSlot_toNat _ hnum, apply_ite BitVec.toNat]
  simp only [BitVec.toNat_inj]

/-- The read cursor moves over the frames that no longer fit, here none or one (R157). -/
theorem State.advanceWrite_readFrameId_eq_discard :
    s.advanceWrite.readFrameId.toNat =
      (s.readFrameId.toNat + (s.unread + 1 - (s.numFrames.toNat - 1))) % s.numFrames.toNat := by
  have hle := State.unread_le hw hr
  rw [State.advanceWrite_readFrameId_toNat hw]
  simp only [State.collision_iff_full hw hr]
  split_ifs with hfull
  · rw [hfull, Nat.add_sub_cancel_left]
  · rw [Nat.sub_eq_zero_of_le (by omega), Nat.add_zero, Nat.mod_eq_of_lt hr]

/-- One more frame is unread, but never more than the ring holds (R157). -/
theorem State.advanceWrite_unread : s.advanceWrite.unread = min (s.unread + 1) (s.numFrames.toNat - 1) := by
  have hle := State.unread_le hw hr
  have hpos := Nat.zero_lt_of_lt hw
  rw [State.unread, State.advanceWrite_numFrames, State.advanceWrite_writeFrameId_toNat hw,
    State.advanceWrite_readFrameId_eq_discard hw hr, ring_distance_eq_iff (Nat.mod_lt _ hpos) (Nat.mod_lt _ hpos)
      (by omega), Nat.mod_add_mod, ← State.slot_after_unread hw hr, Nat.mod_add_mod]
  congr 1
  omega

end Advance

/-- Settles O23: the cursors differ afterwards because at least one frame is then unread. -/
theorem advanceDiscardsTheOldest : Obligations.AdvanceDiscardsTheOldest := by
  intro s htwo hw hr
  have hunread := State.advanceWrite_unread hw hr
  refine ⟨State.advanceWrite_writeFrameId_toNat hw, State.advanceWrite_readFrameId_toNat hw,
    State.collision_iff_full hw hr, fun heq => ?_, hunread, ⟨rfl, rfl, rfl, rfl, rfl, rfl, rfl, rfl, rfl⟩,
    ⟨rfl, rfl, rfl, rfl, rfl⟩, rfl, ⟨rfl, rfl, rfl⟩, rfl, rfl, rfl⟩
  have hnone : s.advanceWrite.unread = 0 := by
    rw [State.unread, heq, Nat.add_sub_cancel_left, Nat.mod_self]
  omega

end Sys2Proof.Machine
end

section
/-! One commit, and many: the ring is a queue that loses its oldest frames (spec/20_memory.md rules R65, R66,
spec/41_write.md rules R153, R157). -/

namespace Sys2Proof.Machine

/-! ### One commit (R153) -/

/-- The state `CommitFrame(F)` leads to when the frame fits its slot. -/
def State.commit (s : State) (f : List Byte) : State :=
  (s.setRegion .storage (Memory.writeBytes s.storage (s.slotAddr s.writeFrameId) f)).advanceWrite

section Commit

variable {s : State} {f : List Byte}

theorem commitFrame_eq (h : s.RingReady) (hf : f.length = s.frameSizeIn.toNat) : commitFrame f s = .ok (s.commit f) :=
  commitFrame_ok.2 ⟨h.numFrames_ne_zero, hf ▸ h.slot_inside h.writeFrameId_lt, rfl⟩

theorem State.commit_eq_of_ok {t : State} (hok : commitFrame f s = .ok t) : t = s.commit f :=
  (commitFrame_ok.1 hok).2.2

/-- Two slots lie one before the other (R66). -/
theorem slots_apart {i j : Nat} (n : Nat) (h : i ≠ j) : i * n + n ≤ j * n ∨ j * n + n ≤ i * n := by
  rw [← Nat.succ_mul, ← Nat.succ_mul]
  exact (Nat.lt_or_gt_of_ne h).imp (Nat.mul_le_mul_right n) (Nat.mul_le_mul_right n)

theorem State.StorageReady.slot_commit_same (h : s.StorageReady) (hf : f.length = s.frameSizeIn.toNat) :
    (s.commit f).slot s.writeFrameId.toNat = f := by
  have := Memory.readBytes_writeBytes_same (s.slotAddr s.writeFrameId) f h.wf
  rwa [hf] at this

theorem State.slot_commit_other {i : Nat} (hf : f.length = s.frameSizeIn.toNat) (hi : i ≠ s.writeFrameId.toNat) :
    (s.commit f).slot i = s.slot i :=
  Memory.readBytes_writeBytes_apart (by rw [hf]; exact slots_apart _ hi)

theorem State.StorageReady.commit (h : s.StorageReady) (hf : f.length = s.frameSizeIn.toNat) :
    (s.commit f).StorageReady :=
  commitFrame_storageReady h (commitFrame_eq h.ring hf)

end Commit

/-- Settles O24: the frame has the size of the slot, which lies inside the storage. -/
theorem commitStoresThenAdvances : Obligations.CommitStoresThenAdvances := by
  intro s f h hlive hf
  have hready := (h.writeReady hlive).storage
  exact ⟨s.commit f, commitFrame_eq hready.ring hf, hready.slot_commit_same hf,
    fun a ha => Memory.read_writeBytes_outside _ _ (hf ▸ ha), rfl, rfl, rfl, rfl,
    ⟨rfl, rfl, rfl, rfl, rfl⟩, rfl⟩

/-! ### The unread frames (R14, R157) -/

/-- The contents of `k` slots in ring order from slot `r` on. -/
def State.slotsFrom (s : State) (r k : Nat) : List (List Byte) :=
  (List.range k).map fun j => s.slot ((r + j) % s.numFrames.toNat)

section Queue

variable {s : State}

theorem State.unreadFrames_eq_slotsFrom (s : State) : s.unreadFrames = s.slotsFrom s.readFrameId.toNat s.unread := rfl

@[simp] theorem State.length_slotsFrom (s : State) (r k : Nat) : (s.slotsFrom r k).length = k := by
  simp [State.slotsFrom]

@[simp] theorem State.length_unreadFrames (s : State) : s.unreadFrames.length = s.unread :=
  s.length_slotsFrom _ _

/-- Leaving out the first slots is starting later. -/
theorem State.drop_slotsFrom (s : State) (r d k : Nat) :
    (s.slotsFrom r (d + k)).drop d = s.slotsFrom ((r + d) % s.numFrames.toNat) k := by
  apply List.ext_getElem (by simp)
  intro j _ _
  simp [State.slotsFrom, Nat.add_assoc]

/-- The first slot comes first. -/
theorem State.slotsFrom_succ (s : State) (r k : Nat) :
    s.slotsFrom r (k + 1) = s.slot (r % s.numFrames.toNat) :: s.slotsFrom ((r + 1) % s.numFrames.toNat) k := by
  rw [← State.drop_slotsFrom, Nat.add_comm 1 k, State.slotsFrom, List.range_succ_eq_map]
  rfl

/-- The newest of the frames in these slots are those in the last slots. -/
theorem State.newest_slotsFrom (s : State) (n r k : Nat) :
    newest n (s.slotsFrom r k) = s.slotsFrom ((r + (k - n)) % s.numFrames.toNat) (min k n) := by
  rw [newest, State.length_slotsFrom, ← State.drop_slotsFrom, Nat.sub_add_min_cancel]

/-- The frame just committed stands behind the unread ones. -/
theorem State.StorageReady.slotsFrom_commit {f : List Byte} (h : s.StorageReady)
    (hf : f.length = s.frameSizeIn.toNat) :
    (s.commit f).slotsFrom s.readFrameId.toNat (s.unread + 1) = s.unreadFrames ++ [f] := by
  have hr := h.ring.readFrameId_lt
  have hlt := State.unread_lt h.ring.writeFrameId_lt hr
  have hslot := State.slot_after_unread h.ring.writeFrameId_lt hr
  have hnum : (s.commit f).numFrames = s.numFrames := rfl
  have hold : ∀ j ∈ List.range s.unread,
      (s.commit f).slot ((s.readFrameId.toNat + j) % s.numFrames.toNat) =
        s.slot ((s.readFrameId.toNat + j) % s.numFrames.toNat) := by
    intro j hj
    have hj := List.mem_range.1 hj
    refine State.slot_commit_other hf fun heq => hj.ne ?_
    exact ring_slot_inj hr (hj.trans hlt) hlt (heq.trans hslot.symm)
  rw [State.slotsFrom, hnum, List.range_succ, List.map_append, List.map_congr_left hold, List.map_singleton, hslot,
    h.slot_commit_same hf]
  rfl

/-- A commit appends its frame to the queue, which keeps the newest `numFrames - 1` (R157). -/
theorem State.StorageReady.unreadFrames_commit {f : List Byte} (h : s.StorageReady)
    (hf : f.length = s.frameSizeIn.toNat) :
    (s.commit f).unreadFrames = newest (s.numFrames.toNat - 1) (s.unreadFrames ++ [f]) := by
  have hw := h.ring.writeFrameId_lt
  have hr := h.ring.readFrameId_lt
  have hunread : (s.commit f).unread = min (s.unread + 1) (s.numFrames.toNat - 1) := State.advanceWrite_unread hw hr
  have hread : (s.commit f).readFrameId.toNat =
      (s.readFrameId.toNat + (s.unread + 1 - (s.numFrames.toNat - 1))) % s.numFrames.toNat :=
    State.advanceWrite_readFrameId_eq_discard hw hr
  rw [← h.slotsFrom_commit hf, State.newest_slotsFrom, State.unreadFrames_eq_slotsFrom, hunread, hread]
  rfl

/-! ### Many commits -/

/-- The state after a list of frames has been committed. -/
def State.commitAll (s : State) (fs : List (List Byte)) : State := fs.foldl State.commit s

/-- Keeping the newest frames as they come is keeping the newest at the end. -/
theorem newest_append_newest (n : Nat) (l m : List (List Byte)) : newest n (newest n l ++ m) = newest n (l ++ m) := by
  rw [newest, newest, newest, ← List.drop_append_of_le_length (Nat.sub_le ..), List.drop_drop]
  congr 1
  simp only [List.length_drop, List.length_append]
  omega

theorem newest_of_length_le {n : Nat} {l : List (List Byte)} (h : l.length ≤ n) : newest n l = l := by
  rw [newest, Nat.sub_eq_zero_of_le h, List.drop_zero]

/-- What committing `n` frames does to the ring (R157): `t` is `s` with the frames `fs` behind its unread ones. -/
structure Enqueues (fs : List (List Byte)) (s t : State) : Prop where
  storage : t.StorageReady
  frame : WriteFrame s t
  unreadFrames : t.unreadFrames = newest (s.numFrames.toNat - 1) (s.unreadFrames ++ fs)
  writeFrameId : t.writeFrameId.toNat = (s.writeFrameId.toNat + fs.length) % s.numFrames.toNat
  readFrameId : t.readFrameId.toNat =
    (s.readFrameId.toNat + (s.unread + fs.length - (s.numFrames.toNat - 1))) % s.numFrames.toNat

theorem State.StorageReady.enqueues_nil (h : s.StorageReady) : Enqueues [] s s where
  storage := h
  frame := .refl s
  unreadFrames := by
    rw [List.append_nil, newest_of_length_le]
    exact s.length_unreadFrames ▸ State.unread_le h.ring.writeFrameId_lt h.ring.readFrameId_lt
  writeFrameId := (Nat.mod_eq_of_lt h.ring.writeFrameId_lt).symm
  readFrameId := by
    have hle := State.unread_le h.ring.writeFrameId_lt h.ring.readFrameId_lt
    rw [List.length_nil, Nat.add_zero, Nat.sub_eq_zero_of_le hle, Nat.add_zero,
      Nat.mod_eq_of_lt h.ring.readFrameId_lt]

/-- The number of unread frames follows from the frames themselves. -/
theorem Enqueues.unread {fs : List (List Byte)} {t : State} (h : Enqueues fs s t) :
    t.unread = min (s.unread + fs.length) (s.numFrames.toNat - 1) := by
  rw [← t.length_unreadFrames, h.unreadFrames, newest, List.length_drop, List.length_append, s.length_unreadFrames]
  omega

theorem Enqueues.trans {fs gs : List (List Byte)} {t u : State} (h : Enqueues fs s t) (h' : Enqueues gs t u) :
    Enqueues (fs ++ gs) s u := by
  have hunread := h.unread
  obtain ⟨-, hframe, hqueue, hwrite, hread⟩ := h
  obtain ⟨hstorage, hframe', hqueue', hwrite', hread'⟩ := h'
  obtain ⟨-, ⟨-, hnum, -⟩, -⟩ := id hframe
  refine ⟨hstorage, hframe.trans hframe', ?_, ?_, ?_⟩
  · rw [hqueue', hnum, hqueue, newest_append_newest, List.append_assoc]
  · rw [hwrite', hnum, hwrite, Nat.mod_add_mod, List.length_append, Nat.add_assoc]
  · rw [hread', hnum, hread, Nat.mod_add_mod, hunread, List.length_append]
    congr 1
    omega

theorem State.StorageReady.enqueues_commit {f : List Byte} (h : s.StorageReady)
    (hf : f.length = s.frameSizeIn.toNat) : Enqueues [f] s (s.commit f) where
  storage := h.commit hf
  frame := (commitFrame_frame (commitFrame_eq h.ring hf)).1
  unreadFrames := h.unreadFrames_commit hf
  writeFrameId := State.advanceWrite_writeFrameId_toNat h.ring.writeFrameId_lt
  readFrameId := State.advanceWrite_readFrameId_eq_discard h.ring.writeFrameId_lt h.ring.readFrameId_lt

/-- Frames of the input size, committed one after the other, queue up in order. -/
theorem State.StorageReady.enqueues_commitAll {fs : List (List Byte)} (h : s.StorageReady)
    (hfs : ∀ f ∈ fs, f.length = s.frameSizeIn.toNat) : Enqueues fs s (s.commitAll fs) := by
  induction fs generalizing s with
  | nil => exact h.enqueues_nil
  | cons f fs ih =>
    obtain ⟨hf, hfs⟩ := List.forall_mem_cons.1 hfs
    exact (h.enqueues_commit hf).trans (ih (h.commit hf) hfs)

end Queue

end Sys2Proof.Machine
end

section
/-! A byte stream cut into frames (spec/41_write.md rule R156): the whole frames and what is left over, and that it
does not matter where the stream was cut before. -/

namespace Sys2Proof.Machine

/-- The whole frames of `n` bytes of a byte stream, in order. -/
def wholeFrames (n : Nat) (bs : List Byte) : List (List Byte) := framesOf n (bs.length / n) bs

/-- The bytes behind the whole frames of a byte stream. -/
def leftOver (n : Nat) (bs : List Byte) : List Byte := bs.drop (bs.length / n * n)

section Cut

variable {n : Nat} {bs : List Byte}

@[simp] theorem length_framesOf (n k : Nat) (bs : List Byte) : (framesOf n k bs).length = k := by
  simp [framesOf]

theorem framesOf_succ (n k : Nat) (bs : List Byte) :
    framesOf n (k + 1) bs = bs.take n :: framesOf n k (bs.drop n) := by
  rw [framesOf, List.range_succ_eq_map, List.map_cons, List.map_map]
  congr 1
  · rw [slice, Nat.zero_mul, List.drop_zero]
  · refine List.map_congr_left fun j _ => ?_
    rw [Function.comp, slice, slice, List.drop_drop, Nat.succ_mul, Nat.add_comm]

/-- Frames taken from bytes enough for them are all of the same size. -/
theorem length_of_mem_framesOf {k : Nat} {f : List Byte} (hle : k * n ≤ bs.length) (hf : f ∈ framesOf n k bs) :
    f.length = n := by
  obtain ⟨j, hj, rfl⟩ := List.mem_map.1 hf
  have hfits := (Nat.mul_le_mul_right n (List.mem_range.1 hj)).trans hle
  rw [Nat.succ_mul] at hfits
  rw [length_slice]
  omega

theorem length_of_mem_wholeFrames {f : List Byte} (hf : f ∈ wholeFrames n bs) : f.length = n :=
  length_of_mem_framesOf (Nat.div_mul_le_self ..) hf

theorem length_leftOver (n : Nat) (bs : List Byte) : (leftOver n bs).length = bs.length % n := by
  rw [leftOver, List.length_drop, ← Nat.mod_eq_sub_div_mul]

theorem length_leftOver_lt (hn : 0 < n) (bs : List Byte) : (leftOver n bs).length < n :=
  length_leftOver n bs ▸ Nat.mod_lt _ hn

/-- Less than a frame is no frame. -/
theorem wholeFrames_of_lt (h : bs.length < n) : wholeFrames n bs = [] := by
  rw [wholeFrames, Nat.div_eq_of_lt h]
  rfl

theorem leftOver_of_lt (h : bs.length < n) : leftOver n bs = bs := by
  rw [leftOver, Nat.div_eq_of_lt h, Nat.zero_mul, List.drop_zero]

theorem length_div_of_le (hn : 0 < n) (h : n ≤ bs.length) : bs.length / n = (bs.drop n).length / n + 1 := by
  rw [List.length_drop, Nat.div_eq_sub_div hn h]

/-- The first frame comes off the front. -/
theorem wholeFrames_of_le (hn : 0 < n) (h : n ≤ bs.length) :
    wholeFrames n bs = bs.take n :: wholeFrames n (bs.drop n) := by
  rw [wholeFrames, length_div_of_le hn h, framesOf_succ, wholeFrames]

theorem leftOver_of_le (hn : 0 < n) (h : n ≤ bs.length) : leftOver n bs = leftOver n (bs.drop n) := by
  rw [leftOver, length_div_of_le hn h, leftOver, List.drop_drop, Nat.succ_mul, Nat.add_comm n]

/-- A stream may be cut anywhere: the bytes left over from its first part come before its second part (R156). -/
theorem cut_append (hn : 0 < n) (bs cs : List Byte) :
    wholeFrames n (bs ++ cs) = wholeFrames n bs ++ wholeFrames n (leftOver n bs ++ cs) ∧
      leftOver n (bs ++ cs) = leftOver n (leftOver n bs ++ cs) := by
  rcases Nat.lt_or_ge bs.length n with hlt | hge
  · rw [wholeFrames_of_lt hlt, leftOver_of_lt hlt, List.nil_append]
    exact ⟨rfl, rfl⟩
  · have hboth : n ≤ (bs ++ cs).length := by
      rw [List.length_append]
      omega
    obtain ⟨hframes, hrest⟩ := cut_append hn (bs.drop n) cs
    rw [wholeFrames_of_le hn hboth, leftOver_of_le hn hboth, wholeFrames_of_le hn hge, leftOver_of_le hn hge,
      List.take_append_of_le_length hge, List.drop_append_of_le_length hge, hframes, hrest]
    exact ⟨rfl, rfl⟩
termination_by bs.length
decreasing_by
  rw [List.length_drop]
  omega

end Cut

end Sys2Proof.Machine
end

section
/-! `WRITE` in closed form (spec/41_write.md rules R156, R157): its three steps commit the whole frames of the bytes held
and the payload, and hold what is left over. -/

namespace Sys2Proof.Machine

/-! ### The bytes of an unfinished frame (R68) -/

/-- The state that holds these bytes of an unfinished frame and no others. -/
def State.hold (s : State) (bs : List Byte) : State :=
  (s.setRegion .pfi (Memory.writeBytes [] 0 bs)).setPartialIn (if bs = [] then 0 else s.frameSizeIn.toNat - bs.length)

section Hold

variable {s t : State} {bs cs : List Byte}

/-- Two memories inside the first `n` addresses that read the same there are the same. -/
theorem Memory.ext_of_within {n : Nat} {m m' : Memory} (hm : Memory.wf m = true) (hm' : Memory.wf m' = true)
    (hn : Memory.within n m = true) (hn' : Memory.within n m' = true)
    (h : Memory.readBytes m 0 n = Memory.readBytes m' 0 n) : m = m' := by
  refine Memory.ext hm hm' fun a => ?_
  rcases Nat.lt_or_ge a n with ha | ha
  · have := List.getElem_of_eq h (i := a) (by simpa using ha)
    simpa using this
  · rw [Memory.read_eq_zero_of_within hn ha, Memory.read_eq_zero_of_within hn' ha]

theorem hold_partialBytesIn_toNat (s : State) (bs : List Byte) (hlt : bs.length < s.frameSizeIn.toNat) :
    (s.hold bs).partialBytesIn.toNat = if bs = [] then 0 else s.frameSizeIn.toNat - bs.length := by
  have := s.frameSizeIn.isLt
  rw [State.hold, State.setPartialIn_partialBytesIn, BitVec.toNat_ofNat, Nat.mod_eq_of_lt]
  split_ifs <;> omega

/-- No bytes are missing exactly when none are held. -/
theorem hold_partialBytesIn_eq_zero (hlt : bs.length < s.frameSizeIn.toNat) :
    (s.hold bs).partialBytesIn = 0#32 ↔ bs = [] := by
  rw [← BitVec.toNat_inj, hold_partialBytesIn_toNat s bs hlt, BitVec.toNat_ofNat, Nat.zero_mod]
  split_ifs with h
  · simp [h]
  · simp only [h, iff_false]
    omega

theorem hold_heldIn (hlt : bs.length < s.frameSizeIn.toNat) : (s.hold bs).heldIn = bs.length := by
  rcases eq_or_ne bs [] with rfl | hne
  · exact State.heldIn_of_zero ((hold_partialBytesIn_eq_zero hlt).2 rfl)
  · rw [State.heldIn_of_pending fun h => hne ((hold_partialBytesIn_eq_zero hlt).1 h),
      hold_partialBytesIn_toNat s bs hlt, if_neg hne]
    exact Nat.sub_sub_self hlt.le

theorem hold_held (hlt : bs.length < s.frameSizeIn.toNat) : (s.hold bs).held = bs := by
  rw [State.held, hold_heldIn hlt]
  exact Memory.readBytes_writeBytes_same 0 bs rfl

/-- A state between two steps of `WRITE` holds the bytes it holds, and no others. -/
theorem State.WriteReady.hold_held_self (h : s.WriteReady) : s.hold s.held = s := by
  have hlt := h.partialBytesIn_lt
  have hsize : s.held.length = s.heldIn := s.length_held
  have hpfi : Memory.writeBytes [] 0 s.held = s.pfi := by
    refine Memory.ext_of_within (Memory.wf_writeBytes _ _ rfl) h.pfi_wf
      (Memory.within_writeBytes _ rfl (by rw [Nat.zero_add, hsize])) h.pfi_within ?_
    have := Memory.readBytes_writeBytes_same (m := []) 0 s.held rfl
    rwa [hsize] at this
  have hpartial : BitVec.ofNat 32 (if s.held = [] then 0 else s.frameSizeIn.toNat - s.held.length) =
      s.partialBytesIn := by
    rw [State.heldIn] at hsize
    split_ifs at hsize with hzero
    · rw [if_pos (List.length_eq_zero_iff.1 hsize), hzero]
    · have hpos := BitVec.toNat_pos_of_ne_zero hzero
      rw [if_neg (List.ne_nil_of_length_pos (by omega)), hsize, Nat.sub_sub_self hlt.le, BitVec.ofNat_toNat,
        BitVec.setWidth_eq]
  rw [State.hold, hpfi, State.setPartialIn, hpartial]
  rfl

@[simp] theorem hold_frameSizeIn (s : State) (bs : List Byte) : (s.hold bs).frameSizeIn = s.frameSizeIn := rfl

@[simp] theorem commitAll_frameSizeIn (s : State) (fs : List (List Byte)) :
    (s.commitAll fs).frameSizeIn = s.frameSizeIn := by
  induction fs generalizing s with
  | nil => rfl
  | cons f fs ih => exact ih (s.commit f)

theorem hold_hold (s : State) (bs cs : List Byte) : (s.hold bs).hold cs = s.hold cs := rfl

/-- The bytes held do not concern a commit. -/
theorem commitAll_hold (s : State) (fs : List (List Byte)) (bs : List Byte) :
    (s.hold bs).commitAll fs = (s.commitAll fs).hold bs := by
  induction fs generalizing s with
  | nil => rfl
  | cons f fs ih => exact ih (s.commit f)

theorem State.StorageReady.hold (h : s.StorageReady) (bs : List Byte) : (s.hold bs).StorageReady :=
  ⟨⟨h.ring.liveStorage, h.ring.livePfi, h.ring.frameSizeIn_pos, h.ring.capacity, h.ring.writeFrameId_lt,
    h.ring.readFrameId_lt⟩, h.wf, h.within⟩

end Hold

/-! ### The three steps of `WRITE` (R151, R154, R155) -/

section Steps

variable {s t : State} {b bs : List Byte} {y : State × List Byte}

/-- What a store behind the bytes held leaves in `PFI`. -/
theorem pfi_hold_append (s : State) (bs cs : List Byte) :
    Memory.writeBytes (s.hold bs).pfi bs.length cs = Memory.writeBytes [] 0 (bs ++ cs) := by
  rw [Memory.writeBytes_append, Nat.zero_add]
  rfl

theorem hold_of_ne_nil (s : State) (hne : bs ≠ []) :
    s.hold bs = (s.setRegion .pfi (Memory.writeBytes [] 0 bs)).setPartialIn (s.frameSizeIn.toNat - bs.length) := by
  rw [State.hold, if_neg hne]

/-- A frame is read back from an empty `PFI` it was stored to, and zeros over it empty `PFI` again (R151). -/
theorem pfi_frame {n : Nat} {f : List Byte} (hf : f.length = n) :
    Memory.readBytes (Memory.writeBytes [] 0 f) 0 n = f ∧
      Memory.writeBytes (Memory.writeBytes [] 0 f) 0 (zeros n) = [] := by
  subst hf
  exact ⟨Memory.readBytes_writeBytes_same 0 f rfl, Memory.writeBytes_zeros (Memory.wf_writeBytes 0 f rfl)
    (Memory.within_writeBytes f rfl (Nat.zero_add _).le)⟩

/-- Step 1: with no bytes held it does nothing; a short payload is held with them; and otherwise the frame they begin is
committed (R151). -/
theorem completePartial_hold (hlt : bs.length < s.frameSizeIn.toNat)
    (hok : completePartial b (s.hold bs) = .ok y) :
    (bs = [] ∧ y = (s.hold [], b)) ∨
    ((bs ++ b).length < s.frameSizeIn.toNat ∧ y = (s.hold (bs ++ b), [])) ∨
    (s.frameSizeIn.toNat ≤ (bs ++ b).length ∧
      y = ((s.commit ((bs ++ b).take s.frameSizeIn.toNat)).hold [], (bs ++ b).drop s.frameSizeIn.toNat)) := by
  obtain ⟨hzero, rfl⟩ | ⟨hpending, -, s1, h1, hcase⟩ := completePartial_ok hok
  · obtain rfl := (hold_partialBytesIn_eq_zero hlt).1 hzero
    exact .inl ⟨rfl, rfl⟩
  · have hne : bs ≠ [] := fun hnil => hpending ((hold_partialBytesIn_eq_zero hlt).2 hnil)
    have hmissing := hold_partialBytesIn_toNat s bs hlt
    rw [if_neg hne] at hmissing
    have hsize : (s.hold bs).frameSizeIn = s.frameSizeIn := rfl
    have hoffset : s.frameSizeIn.toNat - (s.frameSizeIn.toNat - bs.length) = bs.length := Nat.sub_sub_self hlt.le
    rw [hmissing, hsize, hoffset] at h1
    simp only [hmissing, hsize] at hcase
    obtain ⟨-, rfl⟩ := memWrite_ok.1 h1
    rw [List.length_append]
    obtain ⟨hshort, rfl⟩ | ⟨hfull, f, s3, s4, hread, hcommit, h4, rfl⟩ := hcase
    · refine .inr (.inl ⟨by omega, ?_⟩)
      rw [List.drop_length, Nat.min_eq_left hshort.le, List.take_length, State.region_pfi, pfi_hold_append,
        hold_of_ne_nil s (List.append_ne_nil_of_left_ne_nil hne b), List.length_append, Nat.sub_add_eq]
      rfl
    · refine .inr (.inr ⟨by omega, ?_⟩)
      have hframe : bs ++ b.take (s.frameSizeIn.toNat - bs.length) = (bs ++ b).take s.frameSizeIn.toNat := by
        rw [List.take_append, List.take_of_length_le hlt.le]
      have hlen : ((bs ++ b).take s.frameSizeIn.toNat).length = s.frameSizeIn.toNat := by
        rw [List.length_take, List.length_append]
        omega
      obtain ⟨hread_frame, hzeros⟩ := pfi_frame hlen
      rw [Nat.min_eq_right hfull, State.region_pfi, pfi_hold_append, hframe] at hread hcommit
      obtain rfl := (memRead_ok.1 hread).2.trans hread_frame
      obtain rfl := State.commit_eq_of_ok hcommit
      obtain ⟨-, rfl⟩ := memWrite_ok.1 h4
      have hdrop : (bs ++ b).drop s.frameSizeIn.toNat = b.drop (s.frameSizeIn.toNat - bs.length) := by
        rw [List.drop_append, List.drop_of_length_le hlt.le, List.nil_append]
      rw [hdrop, State.region_pfi]
      exact congrArg (fun m => (State.setRegion _ .pfi m, _)) hzeros

/-- Step 2 commits the whole frames of the payload (R154). -/
theorem commitWhole_eq {n : Nat} (h : s.StorageReady) (hn : n * s.frameSizeIn.toNat ≤ b.length) :
    commitWhole n b s = .ok (s.commitAll (framesOf s.frameSizeIn.toNat n b), b.drop (n * s.frameSizeIn.toNat)) := by
  induction n generalizing b s with
  | zero => rw [Nat.zero_mul, List.drop_zero]; rfl
  | succ n ih =>
    rw [Nat.succ_mul] at hn
    have hf : (b.take s.frameSizeIn.toNat).length = s.frameSizeIn.toNat := by
      rw [List.length_take]
      omega
    refine commitWhole_succ_ok.2 ⟨_, commitFrame_eq h.ring hf, ?_⟩
    have hsize : (s.commit (b.take s.frameSizeIn.toNat)).frameSizeIn = s.frameSizeIn := rfl
    rw [ih (h.commit hf) (by rw [hsize, List.length_drop]; omega), hsize, framesOf_succ, List.drop_drop, Nat.succ_mul,
      Nat.add_comm]
    rfl

theorem commitFrames_eq (h : s.StorageReady) (b : List Byte) :
    commitFrames b s =
      .ok (s.commitAll (wholeFrames s.frameSizeIn.toNat b), leftOver s.frameSizeIn.toNat b) :=
  commitFrames_ok.2 ⟨ne_zero_of_toNat_pos h.ring.frameSizeIn_pos, commitWhole_eq h (Nat.div_mul_le_self ..)⟩

/-- Step 3 holds the tail (R155). -/
theorem keepTail_hold (h : s.StorageReady) (hlt : b.length < s.frameSizeIn.toNat) :
    keepTail b (s.hold []) = .ok (s.hold b) := by
  rcases eq_or_ne b [] with rfl | hne
  · exact keepTail_ok.2 (.inl ⟨rfl, rfl⟩)
  · have hfits : 0 + b.length ≤ (s.hold []).regionSize .pfi := by
      rw [(h.hold []).ring.regionSize_pfi, Nat.zero_add]
      exact hlt.le
    refine keepTail_ok.2 (.inr ⟨hne, _, memWrite_ok.2 ⟨hfits, rfl⟩, ?_⟩)
    rw [State.hold, if_neg hne]
    rfl

/-- Steps 2 and 3 with nothing held (R154, R155). -/
theorem keepTail_commitFrames (h : s.StorageReady) (hy : commitFrames b (s.hold []) = .ok y)
    (ht : keepTail y.2 y.1 = .ok t) :
    t = (s.commitAll (wholeFrames s.frameSizeIn.toNat b)).hold (leftOver s.frameSizeIn.toNat b) := by
  rw [commitFrames_eq (h.hold []) b, commitAll_hold, hold_frameSizeIn] at hy
  cases hy
  have hqueue := h.enqueues_commitAll (fs := wholeFrames s.frameSizeIn.toNat b) fun _ => length_of_mem_wholeFrames
  refine Except.ok.inj (ht.symm.trans (keepTail_hold hqueue.storage ?_))
  rw [commitAll_frameSizeIn]
  exact length_leftOver_lt h.ring.frameSizeIn_pos b

/-- The three steps commit the whole frames of the bytes held and the payload, and hold what is left over (R156). -/
theorem writeBody_hold (h : s.StorageReady) (hlt : bs.length < s.frameSizeIn.toNat)
    (hok : writeBody b (s.hold bs) = .ok t) :
    t = (s.commitAll (wholeFrames s.frameSizeIn.toNat (bs ++ b))).hold (leftOver s.frameSizeIn.toNat (bs ++ b)) := by
  obtain ⟨x, y, hx, hy, ht⟩ := writeBody_ok.1 hok
  obtain ⟨rfl, rfl⟩ | ⟨hshort, rfl⟩ | ⟨hfull, rfl⟩ := completePartial_hold hlt hx
  · exact keepTail_commitFrames h hy ht
  · rw [wholeFrames_of_lt hshort, leftOver_of_lt hshort]
    rw [commitFrames_eq (h.hold _), wholeFrames_of_lt h.ring.frameSizeIn_pos,
      leftOver_of_lt h.ring.frameSizeIn_pos] at hy
    cases hy
    exact (Except.ok.inj ht).symm
  · have hf : ((bs ++ b).take s.frameSizeIn.toNat).length = s.frameSizeIn.toNat := by
      rw [List.length_take, Nat.min_eq_left hfull]
    rw [wholeFrames_of_le h.ring.frameSizeIn_pos hfull, leftOver_of_le h.ring.frameSizeIn_pos hfull]
    exact keepTail_commitFrames (h.commit hf) hy ht

/-- The state `WRITE` leads to before its release (R156). -/
def State.written (s : State) (b : List Byte) : State :=
  (s.commitAll (wholeFrames s.frameSizeIn.toNat (s.held ++ b))).hold (leftOver s.frameSizeIn.toNat (s.held ++ b))

theorem State.WriteReady.held_lt (h : s.WriteReady) : s.held.length < s.frameSizeIn.toNat := by
  have hlt := h.partialBytesIn_lt
  rw [State.length_held, State.heldIn]
  split_ifs with hzero
  · exact Nat.zero_lt_of_lt hlt
  · have := BitVec.toNat_pos_of_ne_zero hzero
    omega

theorem writeBody_eq_written (h : s.WriteReady) (hok : writeBody b s = .ok t) : t = s.written b := by
  rw [← h.hold_held_self] at hok
  exact writeBody_hold h.storage h.held_lt hok

end Steps

/-! ### The outcomes of `WRITE` (R150, R157) -/

section Outcomes

variable {s : State} {b c : List Byte}

theorem exec_write_empty (hlive : s.liveStorage = true) (bytes : Option (List Byte)) :
    exec (.write 0#32 bytes) s = raiseFail .invalidArgument s :=
  (if_neg (ne_false_of_eq_true hlive)).trans (if_pos rfl)

theorem exec_write_null {len : Word} (hlive : s.liveStorage = true) (hlen : len ≠ 0#32) :
    exec (.write len none) s = raiseFail .invalidArgument s :=
  (if_neg (ne_false_of_eq_true hlive)).trans (if_neg hlen)

theorem exec_write_payload {len : Word} (hlive : s.liveStorage = true) (hlen : len ≠ 0#32) (b : List Byte) :
    exec (.write len (some b)) s = finish ((writeBody b s).map fun t => (t, [])) :=
  (if_neg (ne_false_of_eq_true hlive)).trans (if_neg hlen)

/-- A payload on live storage is written. -/
theorem exec_write_some {len : Word} (h : s.Legal) (hlive : s.liveStorage = true) (hlen : len ≠ 0#32) :
    exec (.write len (some b)) s = .next ((s.written b).respond (okResponse s.fault [])) := by
  obtain ⟨t, ht⟩ := writeBody_answers b h hlive
  obtain ⟨-, -, -, -, -, hfault, -⟩ := writeBody_frame ht
  rw [exec_write_payload hlive hlen, ht, ← writeBody_eq_written (h.writeReady hlive) ht, ← hfault]
  rfl

end Outcomes

/-- Settles O19: each check of R150 ends the command before the next one. -/
theorem writeFailures : Obligations.WriteFailures :=
  ⟨fun _ len bytes hfree => failsWith_of_raiseFail (exec_write_uninitialized hfree len bytes),
    fun _ bytes hlive => failsWith_of_raiseFail (exec_write_empty hlive bytes),
    fun _ _ hlive hlen => failsWith_of_raiseFail (exec_write_null hlive hlen)⟩

/-- The frames are queued, and the bytes left over do not concern the ring (R157). -/
theorem State.WriteReady.enqueues_written {s : State} (h : s.WriteReady) (b : List Byte) :
    Enqueues (wholeFrames s.frameSizeIn.toNat (s.held ++ b)) s (s.written b) := by
  obtain ⟨hstorage, hframe, hqueue, hwrite, hread⟩ :=
    h.storage.enqueues_commitAll (fs := wholeFrames s.frameSizeIn.toNat (s.held ++ b))
      fun _ => length_of_mem_wholeFrames
  exact ⟨hstorage.hold _, hframe, hqueue, hwrite, hread⟩

/-- What is left over is held, and the rest of its frame is missing (R156). -/
theorem State.WriteReady.held_written {s : State} (h : s.WriteReady) (b : List Byte) :
    (s.written b).held = leftOver s.frameSizeIn.toNat (s.held ++ b) ∧
      (s.written b).partialBytesIn.toNat =
        if (s.held ++ b).length % s.frameSizeIn.toNat = 0 then 0
        else s.frameSizeIn.toNat - (s.held ++ b).length % s.frameSizeIn.toNat := by
  have hlt : (leftOver s.frameSizeIn.toNat (s.held ++ b)).length <
      (s.commitAll (wholeFrames s.frameSizeIn.toNat (s.held ++ b))).frameSizeIn.toNat := by
    rw [commitAll_frameSizeIn]
    exact length_leftOver_lt h.storage.ring.frameSizeIn_pos _
  refine ⟨hold_held hlt, ?_⟩
  rw [State.written, hold_partialBytesIn_toNat _ _ hlt, commitAll_frameSizeIn]
  simp only [← List.length_eq_zero_iff, length_leftOver]

/-! ### One `WRITE` after another (R156) -/

section Split

theorem commitAll_append (s : State) (fs gs : List (List Byte)) :
    s.commitAll (fs ++ gs) = (s.commitAll fs).commitAll gs :=
  List.foldl_append

/-- What is left over from the first payload begins the stream of the second. -/
theorem State.WriteReady.written_written {s : State} (h : s.WriteReady) (b c : List Byte) :
    (s.written b).written c = s.written (b ++ c) := by
  obtain ⟨hheld, -⟩ := h.held_written b
  obtain ⟨hframes, hrest⟩ := cut_append h.storage.ring.frameSizeIn_pos (s.held ++ b) c
  have hsize : (s.written b).frameSizeIn = s.frameSizeIn := commitAll_frameSizeIn s _
  rw [State.written, hheld, hsize, State.written, commitAll_hold, hold_hold, ← commitAll_append, ← hframes, ← hrest,
    List.append_assoc, ← State.written]

theorem commitAll_respond (s : State) (fs : List (List Byte)) (r : Response) :
    (s.respond r).commitAll fs = (s.commitAll fs).respond r := by
  induction fs generalizing s with
  | nil => rfl
  | cons f fs ih => exact ih (s.commit f)

/-- The release before a `WRITE` does not concern it. -/
theorem written_respond (s : State) (b : List Byte) (r : Response) :
    (s.respond r).written b = (s.written b).respond r := by
  rw [State.written, commitAll_respond]
  rfl

/-- The second response takes the place of the first. -/
theorem respond_respond (s : State) (r r' : Response) : (s.respond r).respond r' = s.respond r' := by
  simp only [State.respond, List.set_set]

theorem ofNat_length_ne_zero {b : List Byte} (hne : b ≠ []) (hlt : b.length < 2 ^ 32) :
    BitVec.ofNat 32 b.length ≠ 0#32 := by
  refine ne_zero_of_toNat_pos ?_
  rw [BitVec.toNat_ofNat, Nat.mod_eq_of_lt hlt]
  exact List.length_pos_iff.2 hne

/-- A payload as long as its `LEN` is one a legal request can carry (R105). -/
theorem wellFormed_write (extMax : Nat) {b : List Byte} (hlt : b.length < 2 ^ 32) :
    (Instr.write (BitVec.ofNat 32 b.length) (some b)).wellFormed extMax = true := by
  rw [Instr.wellFormed, BitVec.toNat_ofNat, Nat.mod_eq_of_lt hlt]
  exact decide_eq_true rfl

end Split

/-- Settles O22: the state of both payloads in turn is that of the joined stream, and only the last response shows. -/
theorem writeSplitsAnywhere : Obligations.WriteSplitsAnywhere := by
  intro s b c h hlive hb hc hlen
  have hlens := hlen
  rw [List.length_append] at hlens
  have hready := h.writeReady hlive
  obtain ⟨-, ⟨-, ⟨-, -, -, -, hlive', -⟩, -, -, -, hfault, -⟩, -⟩ := hready.enqueues_written b
  have hfirst := exec_write_some (b := b) h hlive (ofNat_length_ne_zero hb (by omega))
  have hlegal := exec_legal h (wellFormed_write _ (by omega)) hfirst
  have hsecond := exec_write_some (b := c) hlegal (hlive'.trans hlive) (ofNat_length_ne_zero hc (by omega))
  rw [written_respond, hready.written_written, respond_respond, State.respond_fault, hfault] at hsecond
  exact ⟨_, _, hfirst, hsecond,
    exec_write_some h hlive (ofNat_length_ne_zero (List.append_ne_nil_of_left_ne_nil hb c) hlen)⟩

/-- Settles O20: the ring is the queue of the frames committed, and the rest of the stream is held. -/
theorem writeCompletes : Obligations.WriteCompletes := by
  intro s len b h hlive hlen _
  have hready := h.writeReady hlive
  have hqueue := hready.enqueues_written b
  have hunread := hqueue.unread
  obtain ⟨hheld, hpartial⟩ := hready.held_written b
  obtain ⟨hstorage, ⟨hout, ⟨hsize, hnum, hcap, hfmt, -, hpfi⟩, -, howner, hports, hfault, henv, htraffic⟩,
    hframes, hwrite, hread⟩ := hqueue
  rw [wholeFrames, length_framesOf] at hunread hwrite hread
  refine ⟨_, exec_write_some h hlive hlen, ⟨rfl, howner, ?_⟩, hheld, hpartial, hframes, hunread, hwrite, hread, hsize,
    hnum, hcap, hfmt, hstorage.ring.liveStorage, hpfi, hout, hfault, henv, htraffic⟩
  rw [State.respond_ports, hports, howner]

end Sys2Proof.Machine
end

section
/-! `WRITE` reads and writes the input side and the cursors only (spec/41_write.md rule R158 (h)): run with another rest
of the state, its steps lead to the same input side and leave that rest alone. -/

namespace Sys2Proof.Machine

/-- The state with the cursors and the input side of `s`, and everything else of `o`. -/
def State.graft (s o : State) : State :=
  { o with
    writeFrameId := s.writeFrameId
    readFrameId := s.readFrameId
    partialBytesIn := s.partialBytesIn
    frameSizeIn := s.frameSizeIn
    numFrames := s.numFrames
    capacity := s.capacity
    fmtIn := s.fmtIn
    liveStorage := s.liveStorage
    livePfi := s.livePfi
    storage := s.storage
    pfi := s.pfi }

section Graft

variable {s s' t : State} {b : List Byte} {y : State × List Byte}

/-- Two states that agree on the cursors and the input side differ in the rest only. -/
theorem State.eq_graft (hc : SameCursors s s') (hi : SameInput s s') : s' = s.graft s' := by
  obtain ⟨hw, hr⟩ := hc
  obtain ⟨hpartial, hsize, hnum, hcap, hfmt, hlive, hpfi, hstorage, hmem⟩ := hi
  rw [State.graft, ← hw, ← hr, ← hpartial, ← hsize, ← hnum, ← hcap, ← hfmt, ← hlive, ← hpfi, ← hstorage, ← hmem]

@[simp] theorem graft_partialBytesIn (s o : State) : (s.graft o).partialBytesIn = s.partialBytesIn := rfl
@[simp] theorem graft_frameSizeIn (s o : State) : (s.graft o).frameSizeIn = s.frameSizeIn := rfl

theorem memWrite_pfi_graft (o : State) {a : Nat} (h : memWrite s .pfi a b = .ok t) :
    memWrite (s.graft o) .pfi a b = .ok (t.graft o) := by
  obtain ⟨hinside, rfl⟩ := memWrite_ok.1 h
  exact memWrite_ok.2 ⟨hinside, rfl⟩

theorem commitFrame_graft (o : State) (h : commitFrame b s = .ok t) :
    commitFrame b (s.graft o) = .ok (t.graft o) := by
  obtain ⟨hnum, hinside, rfl⟩ := commitFrame_ok.1 h
  exact commitFrame_ok.2 ⟨hnum, hinside, rfl⟩

theorem completePartial_graft (o : State) (h : completePartial b s = .ok y) :
    completePartial b (s.graft o) = .ok (y.1.graft o, y.2) := by
  rw [completePartial] at h ⊢
  rw [graft_partialBytesIn, graft_frameSizeIn]
  split_ifs at h ⊢ with hzero hneg
  · cases h
    rfl
  · rw [except_bind_ok] at h ⊢
    obtain ⟨s1, h1, h⟩ := h
    refine ⟨_, memWrite_pfi_graft o h1, ?_⟩
    dsimp only at h ⊢
    split_ifs at h ⊢ with hfull
    · simp only [except_bind_ok] at h ⊢
      obtain ⟨f, hread, s3, hcommit, s4, h4, h⟩ := h
      cases h
      exact ⟨f, hread, _, commitFrame_graft o hcommit, _, memWrite_pfi_graft o h4, rfl⟩
    · cases h
      rfl

theorem commitWhole_graft (o : State) {n : Nat} (h : commitWhole n b s = .ok y) :
    commitWhole n b (s.graft o) = .ok (y.1.graft o, y.2) := by
  induction n generalizing b s with
  | zero =>
    cases h
    rfl
  | succ n ih =>
    obtain ⟨s1, hcommit, hrest⟩ := commitWhole_succ_ok.1 h
    exact commitWhole_succ_ok.2 ⟨_, commitFrame_graft o hcommit, ih hrest⟩

theorem commitFrames_graft (o : State) (h : commitFrames b s = .ok y) :
    commitFrames b (s.graft o) = .ok (y.1.graft o, y.2) := by
  obtain ⟨hsize, hwhole⟩ := commitFrames_ok.1 h
  exact commitFrames_ok.2 ⟨hsize, commitWhole_graft o hwhole⟩

theorem keepTail_graft (o : State) (h : keepTail b s = .ok t) : keepTail b (s.graft o) = .ok (t.graft o) := by
  obtain ⟨hnil, rfl⟩ | ⟨hne, s1, h1, rfl⟩ := keepTail_ok.1 h
  · exact keepTail_ok.2 (.inl ⟨hnil, rfl⟩)
  · exact keepTail_ok.2 (.inr ⟨hne, _, memWrite_pfi_graft o h1, rfl⟩)

/-- The three steps run alike whatever the rest of the state is. -/
theorem writeBody_graft (o : State) (h : writeBody b s = .ok t) : writeBody b (s.graft o) = .ok (t.graft o) := by
  obtain ⟨x, y, hx, hy, ht⟩ := writeBody_ok.1 h
  exact writeBody_ok.2 ⟨_, _, completePartial_graft o hx, commitFrames_graft o hy, keepTail_graft o ht⟩

/-- `WRITE` writes the input side and releases the guard; the response depends on the rest of the state by `FAULT`
alone. -/
theorem exec_write_graft {len : Word} {bytes : Option (List Byte)} (o : State)
    (h : exec (.write len bytes) s = .next t) :
    ∃ (u : State) (response : BitVec 8 → Response), t = u.respond (response s.fault) ∧ WriteFrame s u ∧
      exec (.write len bytes) (s.graft o) = .next ((u.graft o).respond (response o.fault)) := by
  cases hlive : s.liveStorage with
  | false =>
    rw [exec_write_uninitialized hlive] at h
    cases h
    exact ⟨s, failResponse .uninitialized, rfl, .refl s, exec_write_uninitialized (s := s.graft o) hlive ..⟩
  | true =>
    by_cases hlen : len = 0#32
    · subst hlen
      rw [exec_write_empty hlive] at h
      cases h
      exact ⟨s, failResponse .invalidArgument, rfl, .refl s, exec_write_empty (s := s.graft o) hlive _⟩
    · cases bytes with
      | none =>
        rw [exec_write_null hlive hlen] at h
        cases h
        exact ⟨s, failResponse .invalidArgument, rfl, .refl s, exec_write_null (s := s.graft o) hlive hlen⟩
      | some b =>
        rw [exec_write_payload hlive hlen, finish_next] at h
        obtain ⟨_, hbody, rfl⟩ := h
        obtain ⟨u, hu, rfl⟩ := except_map_ok.1 hbody
        have hf := writeBody_frame hu
        obtain ⟨-, -, -, -, -, hfault, -⟩ := id hf
        refine ⟨u, (okResponse · []), by rw [hfault], hf, ?_⟩
        rw [exec_write_payload (s := s.graft o) hlive hlen, writeBody_graft o hu]
        rfl

end Graft

/-- Settles O25: the second state is the first one's input side within another rest. -/
theorem writeIgnoresTheOutputSide : Obligations.WriteIgnoresTheOutputSide := by
  intro s s' t len bytes hcursors hinput h
  obtain ⟨u, response, rfl, ⟨-, -, -, howner, hports, hfault, -⟩, hstep⟩ := exec_write_graft s' h
  rw [← State.eq_graft hcursors hinput] at hstep
  refine ⟨_, hstep, ⟨rfl, rfl⟩, ⟨rfl, rfl, rfl, rfl, rfl, rfl, rfl, rfl, rfl⟩,
    fun hsame => ⟨hsame.trans hfault.symm, response s.fault, ⟨rfl, howner, ?_⟩, rfl, rfl, ?_⟩,
    fun hsame howner' hports' => ⟨rfl, ?_⟩⟩
  · rw [State.respond_ports, hports, howner]
  · rw [hsame]
    rfl
  · rw [State.respond_ports, State.respond_ports, hports, howner, hsame, ← hports', ← howner']
    rfl

end Sys2Proof.Machine
end

section
/-! The round trip (spec/42_read.md rule R183, spec/95_test_vectors.md vector X1): a `READ` of as many frames as are
unread returns them converted, in order, and leaves the ring empty. -/

namespace Sys2Proof.Machine

/-! ### One advance of the read cursor (R180) -/

section Take

variable {s : State}

/-- The ring is empty exactly when the cursors name the same slot (R50). -/
theorem State.RingReady.unread_eq_zero_iff (h : s.RingReady) : s.unread = 0 ↔ s.readFrameId = s.writeFrameId := by
  rw [State.unread, (ring_distance h.writeFrameId_lt h.readFrameId_lt).2, BitVec.toNat_inj, eq_comm]

theorem State.RingReady.advanceRead (h : s.RingReady) : s.advanceRead.RingReady :=
  h.of_readFrame (by and_intros <;> rfl) (h.nextSlot_lt _)

theorem State.RingReady.advanceRead_readFrameId_toNat (h : s.RingReady) :
    s.advanceRead.readFrameId.toNat = (s.readFrameId.toNat + 1) % s.numFrames.toNat :=
  nextSlot_toNat _ h.numFrames_ne_zero

/-- One frame fewer is unread. -/
theorem State.RingReady.advanceRead_unread (h : s.RingReady) {k : Nat} (hk : s.unread = k + 1) :
    s.advanceRead.unread = k := by
  have hlt := State.unread_lt h.writeFrameId_lt h.readFrameId_lt
  have hslot := State.slot_after_unread h.writeFrameId_lt h.readFrameId_lt
  refine (ring_distance_eq_iff h.advanceRead.writeFrameId_lt h.advanceRead.readFrameId_lt
    (show k < s.numFrames.toNat by omega)).2 ?_
  rw [h.advanceRead_readFrameId_toNat, State.advanceRead_numFrames, Nat.mod_add_mod, Nat.add_assoc, Nat.add_comm 1,
    ← hk, hslot, State.advanceRead_writeFrameId]

/-- The oldest unread frame stands at the read cursor. -/
theorem State.RingReady.unreadFrames_eq_cons (h : s.RingReady) {k : Nat} (hk : s.unread = k + 1) :
    s.unreadFrames = s.slot s.readFrameId.toNat :: s.advanceRead.unreadFrames := by
  rw [State.unreadFrames_eq_slotsFrom, State.unreadFrames_eq_slotsFrom, h.advanceRead_unread hk, hk,
    State.slotsFrom_succ, Nat.mod_eq_of_lt h.readFrameId_lt, h.advanceRead_readFrameId_toNat]
  rfl

theorem takeFrame_eq (h : s.RingReady) :
    takeFrame s = .ok (s.advanceRead, s.converted (s.slot s.readFrameId.toNat)) :=
  takeFrame_ok.2 ⟨h.numFrames_ne_zero, h.slot_inside h.readFrameId_lt, rfl⟩

/-- The loop of step 3 takes every unread frame, oldest first, and drains the ring (R180). -/
theorem takeWhole_drains {k : Nat} {out : List Byte} {rem : Nat} (h : s.RingReady) (hk : s.unread = k + 1) :
    ∃ t, takeWhole (k + 1) s out rem =
        .ok ⟨t, out ++ (s.unreadFrames.map s.converted).flatten, rem - (k + 1) * s.frameSizeOut.toNat, true⟩ ∧
      t.readFrameId = t.writeFrameId := by
  induction k generalizing s out rem with
  | zero =>
    have hunread := h.advanceRead_unread hk
    have hmet := h.advanceRead.unread_eq_zero_iff.1 hunread
    have hnone : s.advanceRead.unreadFrames = [] :=
      List.length_eq_zero_iff.1 (s.advanceRead.length_unreadFrames.trans hunread)
    refine ⟨_, takeWhole_succ_ok.2 ⟨_, takeFrame_eq h, .inl ⟨hmet, ?_⟩⟩, hmet⟩
    rw [h.unreadFrames_eq_cons hk, hnone, Nat.zero_add, Nat.one_mul, List.map_singleton, List.flatten_singleton]
  | succ k ih =>
    have hunread := h.advanceRead_unread hk
    obtain ⟨t, ht, hdrained⟩ := ih (out := out ++ s.converted (s.slot s.readFrameId.toNat))
      (rem := rem - s.frameSizeOut.toNat) h.advanceRead hunread
    refine ⟨t, takeWhole_succ_ok.2 ⟨_, takeFrame_eq h, .inr ⟨fun heq => ?_, ht.trans ?_⟩⟩, hdrained⟩
    · exact absurd (hunread.symm.trans (h.advanceRead.unread_eq_zero_iff.2 heq)) k.succ_ne_zero
    · rw [h.unreadFrames_eq_cons hk, List.map_cons, List.flatten_cons, List.append_assoc, Nat.sub_sub,
        Nat.succ_mul (k + 1), Nat.add_comm s.frameSizeOut.toNat]
      rfl

/-- With nothing kept, a `READ` of as many output frames as are unread puts out those frames converted (R183). -/
theorem readBody_all (h : s.RingReady) (hconv : s.ConvertReady) (hkept : s.partialBytesOut = 0#32)
    (hunread : s.unread ≠ 0) :
    ∃ t, readBody (s.unread * s.frameSizeOut.toNat) s = .ok (t, (s.unreadFrames.map s.converted).flatten) ∧
      t.readFrameId = t.writeFrameId ∧ t.partialBytesOut = 0#32 := by
  obtain ⟨k, hk⟩ := Nat.exists_eq_succ_of_ne_zero hunread
  obtain ⟨t, ht, hdrained⟩ := takeWhole_drains (out := []) (rem := (k + 1) * s.frameSizeOut.toNat) h hk
  rw [Nat.sub_self, List.nil_append] at ht
  have hkeeps : t.partialBytesOut = s.partialBytesOut := (takeWhole_frame ht).2.2
  have hnone : s.partialBytesOut.toNat = 0 := by
    rw [hkept]
    rfl
  have hmore : 0 < (k + 1) * s.frameSizeOut.toNat := Nat.mul_pos k.succ_pos hconv.frameSizeOut_pos
  have hunequal : s.readFrameId ≠ s.writeFrameId := fun heq => hunread (h.unread_eq_zero_iff.2 heq)
  have hwhole : (k + 1) * s.frameSizeOut.toNat / s.frameSizeOut.toNat = k + 1 :=
    Nat.mul_div_cancel _ hconv.frameSizeOut_pos
  have htail (out : List Byte) : silentTail ⟨t, out, 0, true⟩ = .ok (t, out) :=
    silentTail_ok.2 (.inl ⟨Nat.zero_mod _, congrArg (t, ·) (List.append_nil out).symm⟩)
  have hdeliver := deliverFrames_ok.2 ⟨ne_zero_of_toNat_pos hconv.frameSizeOut_pos, _,
    (congrArg (takeWhole · s [] _) hwhole).trans ht, .inl ⟨rfl, htail _⟩⟩
  refine ⟨t, ?_, hdrained, hkeeps.trans hkept⟩
  rw [hk]
  refine readBody_ok.2 ⟨(s, []), if_pos hkept, .inr (.inr ⟨hnone ▸ hmore, hunequal, ?_⟩)⟩
  rw [hnone, Nat.sub_zero]
  exact hdeliver

/-- A `READ` between formats that convert meets no fault (R171). -/
theorem exec_read_converting {len : Word} (hlive : s.liveStorage = true) (hlen : len ≠ 0#32)
    (hconv : s.convSupported = true) : exec (.read len) s = finish (readBody len.toNat s) := by
  have hpfo := State.livePfo_of_convSupported hconv
  rw [exec, execRead, if_neg (ne_false_of_eq_true hlive), if_neg hlen, if_neg fun h => ne_false_of_eq_true hpfo h.2,
    if_neg fun h => ne_false_of_eq_true hconv h.2]

/-- A legal block without kept bytes answers a `READ` of as many output frames as are unread with those frames, and its
ring is then empty. -/
theorem exec_read_all (h : s.Legal) (hlive : s.liveStorage = true) (hconv : s.convSupported = true)
    (hkept : s.partialBytesOut = 0#32) (hunread : s.unread ≠ 0)
    (hfits : s.unread * s.frameSizeOut.toNat < 2 ^ 32) :
    ∃ u, exec (.read (BitVec.ofNat 32 (s.unread * s.frameSizeOut.toNat))) s =
        .next (u.respond (okResponse s.fault ((s.unreadFrames.map s.converted).flatten))) ∧
      ReadFrame s u ∧ u.readFrameId = u.writeFrameId ∧ u.partialBytesOut = 0#32 := by
  have hready := h.convertReady hconv
  have hlen : (BitVec.ofNat 32 (s.unread * s.frameSizeOut.toNat)).toNat = s.unread * s.frameSizeOut.toNat := by
    rw [BitVec.toNat_ofNat, Nat.mod_eq_of_lt hfits]
  have hpos : 0 < s.unread * s.frameSizeOut.toNat :=
    Nat.mul_pos (Nat.pos_of_ne_zero hunread) hready.frameSizeOut_pos
  obtain ⟨u, hu, hdrained, hnone⟩ := readBody_all (h.ringReady hlive) hready hkept hunread
  have hf := readBody_frame hu
  obtain ⟨-, -, -, -, -, -, -, -, hfault, -⟩ := id hf
  refine ⟨u, ?_, hf, hdrained, hnone⟩
  rw [exec_read_converting hlive (ne_zero_of_toNat_pos (hlen.symm ▸ hpos)) hconv, hlen, hu, finish_ok, hfault]

end Take

/-! ### A `WRITE` of whole frames (R157) -/

/-- On an empty ring with nothing held, whole frames that the ring can hold are all unread after the `WRITE` (R157). -/
theorem State.WriteReady.written_whole {s : State} {b : List Byte} {k : Nat} (h : s.WriteReady)
    (hempty : s.readFrameId = s.writeFrameId) (hnone : s.partialBytesIn = 0#32) (hk : k ≤ s.numFrames.toNat - 1)
    (hb : b.length = k * s.frameSizeIn.toNat) :
    (s.written b).unreadFrames = framesOf s.frameSizeIn.toNat k b ∧ (s.written b).unread = k ∧
      (s.written b).partialBytesIn = 0#32 := by
  have hheld : s.held = [] := List.length_eq_zero_iff.1 (s.length_held.trans (State.heldIn_of_zero hnone))
  have hunread : s.unread = 0 := h.storage.ring.unread_eq_zero_iff.2 hempty
  have hframes : wholeFrames s.frameSizeIn.toNat (s.held ++ b) = framesOf s.frameSizeIn.toNat k b := by
    rw [hheld, List.nil_append, wholeFrames, hb, Nat.mul_div_cancel _ h.storage.ring.frameSizeIn_pos]
  have hqueue := h.enqueues_written b
  have hcount := hqueue.unread
  rw [hframes] at hqueue hcount
  rw [length_framesOf, hunread, Nat.zero_add, Nat.min_eq_left hk] at hcount
  have hnew := hqueue.unreadFrames
  have hold : s.unreadFrames = [] := List.length_eq_zero_iff.1 (s.length_unreadFrames.trans hunread)
  rw [hold, List.nil_append, newest_of_length_le ((length_framesOf ..).trans_le hk)] at hnew
  refine ⟨hnew, hcount, ?_⟩
  have hpartial := (h.held_written b).2
  rw [hheld, List.nil_append, hb, Nat.mul_mod_left, if_pos rfl] at hpartial
  exact BitVec.eq_of_toNat_eq hpartial

/-! ### A `WRITE` and then a `READ` -/

@[simp] theorem State.respond_unread (s : State) (r : Response) : (s.respond r).unread = s.unread := rfl
@[simp] theorem State.respond_unreadFrames (s : State) (r : Response) :
    (s.respond r).unreadFrames = s.unreadFrames := rfl
@[simp] theorem State.respond_converted (s : State) (r : Response) : (s.respond r).converted = s.converted := rfl

theorem WriteFrame.convSupported {s t : State} (hf : WriteFrame s t) : t.convSupported = s.convSupported := by
  obtain ⟨⟨-, -, hfmtOut, hlive, -⟩, ⟨-, -, -, hfmtIn, -⟩, -, -, -, -, ⟨hcfg, -⟩, -⟩ := hf
  rw [State.convSupported, State.convSupported, hfmtIn, hfmtOut, hlive, hcfg]

theorem WriteFrame.converted {s t : State} (hf : WriteFrame s t) : t.converted = s.converted := by
  obtain ⟨⟨-, -, hfmtOut, -⟩, ⟨-, -, -, hfmtIn, -⟩, -⟩ := hf
  funext f
  rw [State.converted, State.converted, hfmtIn, hfmtOut]

/-- Settles O31: the `WRITE` leaves `k` unread frames, and the `READ` takes them all. -/
theorem writeThenReadReturnsTheFrames : Obligations.WriteThenReadReturnsTheFrames := by
  intro s b k h hlive hconv hempty hnone hkept hpos hk hb hlen hfits
  have hready := h.writeReady hlive
  have hne : b ≠ [] := List.ne_nil_of_length_pos (hb ▸ Nat.mul_pos hpos hready.storage.ring.frameSizeIn_pos)
  have hwrite := exec_write_some (b := b) h hlive (ofNat_length_ne_zero hne hlen)
  have hlegal := exec_legal h (wellFormed_write _ hlen) hwrite
  obtain ⟨hframes, hunread, hwhole⟩ := hready.written_whole hempty hnone hk hb
  have hf := (hready.enqueues_written b).frame
  have hconverts := hf.convSupported.trans hconv
  have hconverted := hf.converted
  obtain ⟨⟨hkept', hsize, -⟩, ⟨-, -, -, -, hlive', -⟩, -, howner, hports, hfault, -⟩ := hf
  have hread := exec_read_all hlegal (hlive'.trans hlive) hconverts (hkept'.trans hkept)
    (hunread.trans_ne (Nat.ne_of_gt hpos)) (by
      rw [State.respond_unread, hunread, State.respond_frameSizeOut, hsize]
      exact hfits)
  rw [State.respond_unread, hunread, State.respond_frameSizeOut, hsize, State.respond_unreadFrames, hframes,
    State.respond_converted, hconverted, State.respond_fault, hfault] at hread
  obtain ⟨u, hu, ⟨-, ⟨hpartial, -⟩, -, -, -, -, howner', hports', hfault', -⟩, hdrained, hnone'⟩ := hread
  refine ⟨_, _, hwrite, hu, ⟨rfl, howner, ?_⟩, ⟨rfl, howner', ?_⟩, hdrained, hpartial.trans hwhole, hnone',
    hfault'.trans hfault, fun hgood => (hfault'.trans hfault).trans hgood⟩
  · rw [State.respond_ports, hports, howner]
  · rw [State.respond_ports, hports', howner']

end Sys2Proof.Machine
end

section
/-! The Sample Converter (spec/42_read.md rules R176 to R179): the samples a conversion makes, and a converted frame lane
by lane. -/

namespace Sys2Proof

/-! ### Lists of pieces of one length -/

section Pieces

variable {α : Type} {L : List (List α)} {n q : Nat}

theorem sum_take_lengths (h : ∀ l ∈ L, l.length = n) (hq : q ≤ L.length) :
    ((L.map List.length).take q).sum = q * n := by
  have hlengths : L.map List.length = List.replicate L.length n :=
    List.eq_replicate_iff.2 ⟨List.length_map _, by simpa using h⟩
  rw [hlengths, List.take_replicate, Nat.min_eq_left hq, List.sum_replicate, smul_eq_mul]

/-- The first pieces. -/
theorem take_flatten_of_length (h : ∀ l ∈ L, l.length = n) (hq : q ≤ L.length) :
    L.flatten.take (q * n) = (L.take q).flatten := by
  rw [← sum_take_lengths h hq, List.take_sum_flatten]

/-- What stands behind the first pieces begins with the next piece. -/
theorem take_drop_flatten_of_length (h : ∀ l ∈ L, l.length = n) (hq : q < L.length) {r : Nat} (hr : r ≤ n) :
    (L.flatten.drop (q * n)).take r = L[q].take r := by
  rw [← sum_take_lengths h hq.le, List.drop_sum_flatten, List.drop_eq_getElem_cons hq, List.flatten_cons,
    List.take_append_of_le_length (h _ (List.getElem_mem hq) ▸ hr)]

/-- Some first pieces and the head of the next one. -/
theorem take_flatten_add (h : ∀ l ∈ L, l.length = n) {l : List α} (hl : L[q]? = some l) {r : Nat} (hr : r ≤ n) :
    L.flatten.take (q * n + r) = (L.take q).flatten ++ l.take r := by
  obtain ⟨hq, rfl⟩ := List.getElem?_eq_some_iff.1 hl
  rw [List.take_add, take_flatten_of_length h hq.le, take_drop_flatten_of_length h hq hr]

theorem length_flatten_of_length (h : ∀ l ∈ L, l.length = n) : L.flatten.length = L.length * n := by
  rw [List.length_flatten, ← sum_take_lengths h le_rfl, ← L.length_map (f := List.length), List.take_length]

end Pieces

/-! ### Samples (R177, R178) -/

/-- A signed integer that fits in some bytes is read back as itself (R12). -/
theorem leSint_leBytes {n : Nat} {v : Int} (hlow : -(256 ^ n) ≤ v * 2) (hhigh : v * 2 < 256 ^ n) :
    leSint (leBytes n v) = v := by
  have hpow : ((2 ^ (8 * n) : Nat) : Int) = 256 ^ n := by
    rw [pow_mul]
    norm_num
  rw [leSint, length_leBytes, BitVec.toInt_eq_toNat_bmod, BitVec.toNat_ofNat, Int.natCast_emod, Int.emod_bmod,
    leUint_leBytes, ← hpow, Int.emod_bmod]
  exact Int.bmod_eq_of_le_mul_two (by rw [hpow]; omega) (by rw [hpow]; omega)

/-- Between sample sizes of `a` and `k + a` bytes the bytes of a sample come behind `k` zero bytes (R177, R178). -/
theorem leBytes_convertSample {bs : List Byte} {s d : Nat} (k : Nat) (h : d - s = 8 * k) :
    leBytes (k + bs.length) (convertSample s d (leSint bs)) = zeros k ++ bs := by
  rw [convertSample, h, pow_mul, show (2 : Int) ^ 8 = 256 by norm_num, leBytes_mul_pow, leBytes_leSint]

theorem convertSample_16_32 (v : Int) : convertSample 16 32 v = v * 65536 := by
  rw [convertSample]
  norm_num

/-- Settles O32: the conversion is the product with `256^2`. -/
theorem wideningIsExact : Obligations.WideningIsExact := by
  refine ⟨fun v hlow hhigh => ?_, fun v w heq => ?_, fun b0 b1 => leBytes_convertSample (bs := [b0, b1]) 2 rfl,
    rfl, rfl, rfl, rfl, rfl, rfl⟩
  · have hbytes : leSint (leBytes 4 (v * 65536)) = v * 65536 := leSint_leBytes (by omega) (by omega)
    have hsign : (v * 65536).sign = v.sign := by
      rw [Int.sign_mul, show (65536 : Int).sign = 1 from rfl, mul_one]
    rw [convertSample_16_32]
    exact ⟨rfl, by omega, by omega, hbytes, hsign, by omega, by omega⟩
  · rw [convertSample_16_32, convertSample_16_32] at heq
    omega

/-! ### Frames (R176, R179) -/

/-- Lane `c` of a converted frame is the conversion of the sample in lane `c` (R179). -/
theorem slice_convertFrame {fi fo : Descriptor} {f : List Byte} {c : Nat} (hc : c < fi.channels.toNat) :
    slice (convertFrame fi fo f) (c * (fo.bits.toNat / 8)) (fo.bits.toNat / 8) =
      leBytes (fo.bits.toNat / 8) (convertSample fi.bits.toNat fo.bits.toNat
        (leSint (slice f (c * (fi.bits.toNat / 8)) (fi.bits.toNat / 8)))) := by
  rw [slice, convertFrame, List.flatMap_def, take_drop_flatten_of_length (n := fo.bits.toNat / 8) _ _ le_rfl]
  · rw [List.getElem_map, List.getElem_range, List.take_of_length_le (length_leBytes ..).le]
  · simp
  · simpa using hc

/-- Settles O33: a lane is one sample, and both sample sizes are whole bytes. -/
theorem framesConvertLaneByLane : Obligations.FramesConvertLaneByLane := by
  intro fi fo f hchannels hin hout hwider hf
  refine ⟨by rw [Machine.length_convertFrame, Descriptor.frameSize, hchannels], fun c hc => ?_⟩
  have hlane : (slice f (c * (fi.bits.toNat / 8)) (fi.bits.toNat / 8)).length = fi.bits.toNat / 8 := by
    have hinside : (c + 1) * (fi.bits.toNat / 8) ≤ fi.frameSize := Nat.mul_le_mul_right _ hc
    rw [Nat.succ_mul] at hinside
    rw [length_slice, hf]
    omega
  have hsize : fo.bits.toNat / 8 = (fo.bits.toNat - fi.bits.toNat) / 8 + fi.bits.toNat / 8 := by omega
  have hconvert := leBytes_convertSample (bs := slice f (c * (fi.bits.toNat / 8)) (fi.bits.toNat / 8))
    (s := fi.bits.toNat) (d := fo.bits.toNat) ((fo.bits.toNat - fi.bits.toNat) / 8) (by omega)
  rw [hlane, ← hsize] at hconvert
  rw [slice_convertFrame hc, hconvert]

end Sys2Proof
end

section
/-! `READ` command by command of its checks (spec/42_read.md rules R170, R171, R175): the failures, the two faults, and when
the body runs. -/

namespace Sys2Proof.Machine

section Checks

variable {s : State} {len : Word}

theorem exec_read_zero (hlive : s.liveStorage = true) : exec (.read 0#32) s = raiseFail .invalidArgument s :=
  (if_neg (ne_false_of_eq_true hlive)).trans (if_pos rfl)

/-- A frame is wanted when the kept bytes do not suffice and a frame is unread (R171). -/
theorem mustConvert_iff {n : Nat} :
    s.mustConvert n = true ↔ s.partialBytesOut.toNat < n ∧ s.readFrameId ≠ s.writeFrameId := by
  simp [State.mustConvert]

/-- An owned output side of formats that do not convert into each other is not supported (R175). -/
theorem convSupported_eq_false
    (hformats : s.fmtIn.channels ≠ s.fmtOut.channels ∨
      (s.fmtIn.bits.toNat, s.fmtOut.bits.toNat) ∉ s.cfg.convPairs) : s.convSupported = false := by
  refine Bool.eq_false_of_not_eq_true fun hconv => ?_
  simp only [State.convSupported, Bool.and_eq_true, beq_iff_eq, List.elem_iff] at hconv
  obtain ⟨⟨-, hchannels⟩, hpair⟩ := hconv
  exact hformats.elim (· hchannels) (· hpair)

/-- An unread frame between formats that do not convert is the fault `F_CONV` (R171). -/
theorem exec_read_conv (hlive : s.liveStorage = true) (hlen : len ≠ 0#32) (hpfo : s.livePfo = true)
    (hmust : s.mustConvert len.toNat = true) (hconv : s.convSupported = false) :
    exec (.read len) s = raiseFault .conv s := by
  rw [exec, execRead, if_neg (ne_false_of_eq_true hlive), if_neg hlen, if_neg fun h => ne_false_of_eq_true hpfo h.2,
    if_pos ⟨hmust, hconv⟩]

/-- A `READ` whose conversions are supported meets no fault (R171). -/
theorem exec_read_finish (hlive : s.liveStorage = true) (hlen : len ≠ 0#32)
    (hconv : s.mustConvert len.toNat = true → s.convSupported = true) :
    exec (.read len) s = finish (readBody len.toNat s) := by
  rw [exec, execRead, if_neg (ne_false_of_eq_true hlive), if_neg hlen,
    if_neg fun h => ne_false_of_eq_true (State.livePfo_of_convSupported (hconv h.1)) h.2,
    if_neg fun h => ne_false_of_eq_true (hconv h.1) h.2]

end Checks

/-- Settles O26: each check of R170 ends the command before the next one. -/
theorem readFailures : Obligations.ReadFailures :=
  ⟨fun _ len hfree => failsWith_of_raiseFail (exec_read_uninitialized hfree len),
    fun _ hlive => failsWith_of_raiseFail (exec_read_zero hlive)⟩

/-- Settles O27: the pre-check of R171 comes before the body, and raising a fault sets its bit only. -/
theorem readFaults : Obligations.ReadFaults := by
  intro s len hlive hlen hmore hunread
  have hmust : s.mustConvert len.toNat = true := mustConvert_iff.2 ⟨hmore, hunread⟩
  exact ⟨fun hpfo => ⟨_, exec_read_noOut hlive hlen hpfo hmust, rfl, ⟨rfl, rfl, rfl⟩, sameBlock_refl s,
      ⟨rfl, rfl, rfl⟩, rfl, rfl, rfl⟩,
    fun hpfo hformats => ⟨_, exec_read_conv hlive hlen hpfo hmust (convSupported_eq_false hformats), rfl,
      ⟨rfl, rfl, rfl⟩, sameBlock_refl s, ⟨rfl, rfl, rfl⟩, rfl, rfl, rfl⟩⟩

end Sys2Proof.Machine
end

section
/-! Which bytes `READ` stores to: those of one output frame in `PFO` (spec/42_read.md rules R173, R181, R182, R184 (g)). -/

namespace Sys2Proof.Machine

/-- A part of `READ` led from `s` to `t`, and stored to no byte beyond the `PFO` of `s`. -/
structure StoresPfo (s t : State) : Prop where
  frame : ReadFrame s t
  beyond : ∀ a, s.regionSize .pfo ≤ a → Memory.read t.pfo a = Memory.read s.pfo a

section StoresPfo

variable {s t u : State}

theorem StoresPfo.trans (h : StoresPfo s t) (h' : StoresPfo t u) : StoresPfo s u where
  frame := h.frame.trans h'.frame
  beyond a ha := (h'.beyond a (h.frame.regionSize_pfo.symm ▸ ha)).trans (h.beyond a ha)

theorem StoresPfo.of_pfo_eq (hf : ReadFrame s t) (hpfo : t.pfo = s.pfo) : StoresPfo s t :=
  ⟨hf, fun _ _ => by rw [hpfo]⟩

theorem StoresPfo.refl (s : State) : StoresPfo s s := .of_pfo_eq (.refl s) rfl

theorem setPartialOut_storesPfo (s : State) (n : Nat) : StoresPfo s (s.setPartialOut n) :=
  .of_pfo_eq (setPartialOut_frame s n) rfl

/-- A store that has a meaning stays inside `PFO` (R13). -/
theorem memWrite_storesPfo {a : Nat} {bs : List Byte} (h : memWrite s .pfo a bs = .ok t) : StoresPfo s t := by
  refine ⟨(memWrite_pfo_frame h).1, fun a' ha' => ?_⟩
  obtain ⟨hinside, rfl⟩ := memWrite_ok.1 h
  exact Memory.read_writeBytes_outside _ _ (.inr (hinside.trans ha'))

/-! ### The steps of `READ` (R173, R180 to R182) -/

theorem deliverPending_storesPfo {n : Nat} {y : State × List Byte} (h : deliverPending n s = .ok y) :
    StoresPfo s y.1 := by
  obtain ⟨-, rfl⟩ | ⟨-, -, out, -, ⟨-, rfl⟩ | ⟨-, s2, h2, rfl⟩⟩ := deliverPending_ok h
  · exact .refl s
  · exact setPartialOut_storesPfo _ _
  · exact (setPartialOut_storesPfo _ _).trans (memWrite_storesPfo h2)

theorem takeFrame_storesPfo {y : State × List Byte} (h : takeFrame s = .ok y) : StoresPfo s y.1 :=
  .of_pfo_eq (takeFrame_frame h).1 (takeFrame_frame h).2.1

theorem takeWhole_storesPfo {n : Nat} {out : List Byte} {rem : Nat} {p : ReadProgress}
    (h : takeWhole n s out rem = .ok p) : StoresPfo s p.state :=
  .of_pfo_eq (takeWhole_frame h).1 (takeWhole_frame h).2.1

theorem silentTail_storesPfo {p : ReadProgress} {y : State × List Byte} (h : silentTail p = .ok y) :
    StoresPfo p.state y.1 := by
  obtain ⟨-, rfl⟩ | ⟨-, s1, h1, rfl⟩ := silentTail_ok.1 h
  · exact .refl _
  · exact (memWrite_storesPfo h1).trans (setPartialOut_storesPfo _ _)

theorem fractionalFrame_storesPfo {p : ReadProgress} {y : State × List Byte} (h : fractionalFrame p = .ok y) :
    StoresPfo p.state y.1 := by
  obtain ⟨-, rfl⟩ | ⟨-, x, s1, head, hx, h1, -, rfl⟩ := fractionalFrame_ok.1 h
  · exact .refl _
  · exact ((takeFrame_storesPfo hx).trans (memWrite_storesPfo h1)).trans (setPartialOut_storesPfo _ _)

theorem deliverFrames_storesPfo {rem : Nat} {out : List Byte} {y : State × List Byte}
    (h : deliverFrames rem out s = .ok y) : StoresPfo s y.1 := by
  obtain ⟨-, p, hp, ⟨-, h1⟩ | ⟨-, h1⟩⟩ := deliverFrames_ok.1 h
  · exact (takeWhole_storesPfo hp).trans (silentTail_storesPfo h1)
  · exact (takeWhole_storesPfo hp).trans (fractionalFrame_storesPfo h1)

theorem readBody_storesPfo {n : Nat} {y : State × List Byte} (h : readBody n s = .ok y) : StoresPfo s y.1 := by
  obtain ⟨x, hx, hcase⟩ := readBody_ok.1 h
  have hpending := deliverPending_storesPfo hx
  obtain ⟨-, rfl⟩ | ⟨-, -, rfl⟩ | ⟨-, -, hd⟩ := hcase
  · exact hpending
  · exact hpending
  · exact hpending.trans (deliverFrames_storesPfo hd)

/-- While more is kept than is asked for, only the count of kept bytes moves (R173). -/
theorem readBody_pfo_of_lt {n : Nat} {y : State × List Byte} (hlt : n < s.partialBytesOut.toNat)
    (h : readBody n s = .ok y) : y.1.pfo = s.pfo := by
  obtain ⟨x, hx, ⟨-, rfl⟩ | ⟨hmore, -⟩ | ⟨hmore, -⟩⟩ := readBody_ok.1 h
  · obtain ⟨-, rfl⟩ | ⟨-, -, out, -, ⟨-, rfl⟩ | ⟨hle, -⟩⟩ := deliverPending_ok hx
    · rfl
    · rfl
    · omega
  · omega
  · omega

end StoresPfo

/-- Settles O30: the checks of `READ` store nothing, and each of its steps stays inside `PFO`. -/
theorem readStoresOnlyToPfo : Obligations.ReadStoresOnlyToPfo := by
  intro s t len h
  obtain ⟨c, rfl⟩ | ⟨c, rfl⟩ | ⟨-, hlen, -, y, hy, rfl⟩ := execRead_next h
  · exact ⟨rfl, rfl, fun _ _ => rfl, fun _ => rfl, fun _ _ => rfl⟩
  · exact ⟨rfl, rfl, fun _ _ => rfl, fun _ => rfl, fun _ _ => rfl⟩
  · obtain ⟨⟨-, ⟨-, -, -, -, -, -, -, hstorage, hpfi⟩, -⟩, hbeyond⟩ := readBody_storesPfo hy
    refine ⟨hstorage, hpfi, hbeyond, fun hlt => readBody_pfo_of_lt hlt hy, fun hkept hempty => ?_⟩
    cases hy.symm.trans (readBody_empty (BitVec.toNat_pos_of_ne_zero hlen) hkept hempty)
    rfl

end Sys2Proof.Machine
end

section
/-! `READ` step by step (spec/42_read.md rules R173, R174, R180 to R182): what each step delivers, and where it leaves the
cursors and the kept bytes. -/

namespace Sys2Proof.Machine

/-! ### The kept bytes (R69, R173) -/

theorem Memory.take_readBytes (m : Memory) (a : Nat) {k n : Nat} (h : k ≤ n) :
    (Memory.readBytes m a n).take k = Memory.readBytes m a k := by
  obtain ⟨d, rfl⟩ := Nat.exists_eq_add_of_le h
  rw [Memory.readBytes_add, List.take_left' (Memory.length_readBytes ..)]

theorem Memory.drop_readBytes (m : Memory) (a k d : Nat) :
    (Memory.readBytes m a (k + d)).drop k = Memory.readBytes m (a + k) d := by
  rw [Memory.readBytes_add, List.drop_left' (Memory.length_readBytes ..)]

section Pending

variable {s : State} {n : Nat} {y : State × List Byte}

@[simp] theorem State.length_kept (s : State) : s.kept.length = s.partialBytesOut.toNat :=
  Memory.length_readBytes ..

theorem State.kept_eq_nil (h : s.partialBytesOut = 0#32) : s.kept = [] :=
  List.length_eq_zero_iff.1 (s.length_kept.trans (congrArg BitVec.toNat h))

theorem State.setPartialOut_partialBytesOut_toNat {m : Nat} (h : m ≤ s.partialBytesOut.toNat) :
    (s.setPartialOut m).partialBytesOut.toNat = m :=
  toNat_ofNat_of_le h (by omega)

/-- Fewer bytes kept are the last of the bytes kept before (R173). -/
theorem State.kept_setPartialOut (hn : n ≤ s.partialBytesOut.toNat)
    (hlt : s.partialBytesOut.toNat < s.frameSizeOut.toNat) :
    (s.setPartialOut (s.partialBytesOut.toNat - n)).kept = s.kept.drop n := by
  obtain ⟨d, hd⟩ := Nat.exists_eq_add_of_le hn
  have hcount := State.setPartialOut_partialBytesOut_toNat (Nat.sub_le s.partialBytesOut.toNat n)
  rw [State.kept, State.kept, hcount, hd, Memory.drop_readBytes, Nat.add_sub_cancel_left, State.setPartialOut_pfo,
    State.setPartialOut_frameSizeOut]
  congr 1
  omega

/-- A request for more than is kept, or as much, gets all of it, and nothing is kept any more (R173). -/
theorem deliverPending_all (hle : s.partialBytesOut.toNat ≤ n) (hok : deliverPending n s = .ok y) :
    y.2 = s.kept ∧ y.1.partialBytesOut = 0#32 := by
  obtain ⟨hnone, rfl⟩ | ⟨-, -, out, hout, ⟨hmore, -⟩ | ⟨-, s2, h2, rfl⟩⟩ := deliverPending_ok hok
  · exact ⟨(State.kept_eq_nil hnone).symm, hnone⟩
  · omega
  · rw [Nat.min_eq_right hle] at hout
    exact ⟨(memRead_ok.1 hout).2, (memWrite_pfo_frame h2).2.2⟩

/-- A request for no more than is kept gets the first kept bytes, and the others stay kept (R173). -/
theorem deliverPending_first (h : s.ReadReady) (hle : n ≤ s.partialBytesOut.toNat)
    (hok : deliverPending n s = .ok y) :
    y.2 = s.kept.take n ∧ y.1.partialBytesOut.toNat = s.partialBytesOut.toNat - n ∧ y.1.kept = s.kept.drop n := by
  rcases hle.lt_or_eq with hlt | heq
  · have hpending := ne_zero_of_toNat_pos (Nat.zero_lt_of_lt hlt)
    obtain ⟨hnone, -⟩ | ⟨-, -, out, hout, ⟨-, rfl⟩ | ⟨hmore, -⟩⟩ := deliverPending_ok hok
    · exact absurd hnone hpending
    · rw [Nat.min_eq_left hle, memRead_ok] at hout
      exact ⟨hout.2.trans (Memory.take_readBytes _ _ hle).symm,
        State.setPartialOut_partialBytesOut_toNat (Nat.sub_le ..), State.kept_setPartialOut hle (h.pending hpending).2⟩
    · omega
  · obtain ⟨hall, hnone⟩ := deliverPending_all heq.ge hok
    have hlength : s.kept.length = n := s.length_kept.trans heq.symm
    rw [State.kept_eq_nil hnone, hnone, hall, List.take_of_length_le hlength.le, List.drop_of_length_le hlength.le, heq]
    exact ⟨rfl, (Nat.sub_self _).symm, rfl⟩

end Pending

/-! ### What is unread does not change with the output side -/

section Frame

variable {s t : State}

theorem ReadFrame.converted (hf : ReadFrame s t) : t.converted = s.converted := by
  obtain ⟨-, ⟨-, -, -, -, hfmtIn, -⟩, -, hfmtOut, -⟩ := hf
  funext f
  rw [State.converted, State.converted, hfmtIn, hfmtOut]

theorem ReadFrame.unread (hf : ReadFrame s t) (hr : t.readFrameId = s.readFrameId) : t.unread = s.unread := by
  rw [State.unread, State.unread, hf.1, hf.numFrames, hr]

theorem ReadFrame.unreadFrames (hf : ReadFrame s t) (hr : t.readFrameId = s.readFrameId) :
    t.unreadFrames = s.unreadFrames := by
  obtain ⟨-, ⟨-, hsize, hnum, -, -, -, -, hstorage, -⟩, -⟩ := id hf
  have hslot : t.slot = s.slot := by
    funext i
    rw [State.slot, State.slot, hstorage, hsize]
  rw [State.unreadFrames, State.unreadFrames, hf.unread hr, hr, hnum, hslot]

end Frame

/-! ### The loop of step 3 (R180) -/

section Loop

variable {s t : State} {n : Nat} {out : List Byte} {rem : Nat}

/-- Fewer frames than are unread are taken in order, and the ring has not drained (R180). -/
theorem takeWhole_not_drained (h : s.RingReady) (hn : n < s.unread) :
    ∃ t, takeWhole n s out rem =
        .ok ⟨t, out ++ ((s.unreadFrames.map s.converted).take n).flatten, rem - n * s.frameSizeOut.toNat, false⟩ ∧
      t.RingReady ∧ t.readFrameId.toNat = (s.readFrameId.toNat + n) % s.numFrames.toNat ∧
      t.unreadFrames = s.unreadFrames.drop n := by
  induction n generalizing s out rem with
  | zero => exact ⟨s, by simp [takeWhole_zero], h, (Nat.mod_eq_of_lt h.readFrameId_lt).symm, rfl⟩
  | succ n ih =>
    obtain ⟨k, hk⟩ := Nat.exists_eq_add_of_lt (Nat.zero_lt_of_lt hn)
    rw [Nat.zero_add] at hk
    have hunread := h.advanceRead_unread hk
    obtain ⟨t, ht, hring, hread, hrest⟩ := ih (out := out ++ s.converted (s.slot s.readFrameId.toNat))
      (rem := rem - s.frameSizeOut.toNat) h.advanceRead (by omega)
    refine ⟨t, takeWhole_succ_ok.2 ⟨_, takeFrame_eq h, .inr ⟨fun heq => ?_, ht.trans ?_⟩⟩, hring, ?_, ?_⟩
    · have := h.advanceRead.unread_eq_zero_iff.2 heq
      omega
    · rw [h.unreadFrames_eq_cons hk, List.map_cons, List.take_succ_cons, List.flatten_cons, List.append_assoc,
        Nat.sub_sub, Nat.succ_mul, Nat.add_comm s.frameSizeOut.toNat]
      rfl
    · rw [hread, h.advanceRead_readFrameId_toNat, State.advanceRead_numFrames, Nat.mod_add_mod, Nat.add_assoc,
        Nat.add_comm 1]
    · rw [hrest, h.unreadFrames_eq_cons hk, List.drop_succ_cons]

/-- When the older unread frames are taken, the next one stands at the read cursor. -/
theorem State.RingReady.getElem?_unreadFrames (h : t.RingReady) (hrest : t.unreadFrames = s.unreadFrames.drop n)
    (hn : n < s.unread) : s.unreadFrames[n]? = some (t.slot t.readFrameId.toNat) := by
  have hcount : t.unread = s.unread - n := by
    rw [← State.length_unreadFrames, hrest, List.length_drop, State.length_unreadFrames]
  rw [h.unreadFrames_eq_cons (k := s.unread - n - 1) (by omega)] at hrest
  rw [← Nat.add_zero n, ← List.getElem?_drop, ← hrest, List.getElem?_cons_zero]

/-- Once the ring has drained, the frames still allowed do not matter (R180). -/
theorem takeWhole_of_drained {k : Nat} {p : ReadProgress} (hdrained : p.drained = true) (hle : k ≤ n)
    (hok : takeWhole k s out rem = .ok p) : takeWhole n s out rem = .ok p := by
  induction k generalizing s out rem n with
  | zero =>
    cases hok
    cases hdrained
  | succ k ih =>
    obtain ⟨m, rfl⟩ := Nat.exists_eq_add_of_le' hle
    obtain ⟨x, hx, hstop | ⟨hgo, hrest⟩⟩ := takeWhole_succ_ok.1 hok
    · exact takeWhole_succ_ok.2 ⟨x, hx, .inl hstop⟩
    · exact takeWhole_succ_ok.2 ⟨x, hx, .inr ⟨hgo, ih (Nat.le_add_left k m) hrest⟩⟩

/-- With as many frames allowed as are unread, or more, the loop takes every unread frame (R180). -/
theorem takeWhole_drained (h : s.RingReady) (hsome : s.unread ≠ 0) (hn : s.unread ≤ n) :
    ∃ t, takeWhole n s out rem =
        .ok ⟨t, out ++ (s.unreadFrames.map s.converted).flatten, rem - s.unread * s.frameSizeOut.toNat, true⟩ ∧
      t.readFrameId = t.writeFrameId := by
  obtain ⟨k, hk⟩ := Nat.exists_eq_succ_of_ne_zero hsome
  obtain ⟨t, ht, hmet⟩ := takeWhole_drains (out := out) (rem := rem) h hk
  rw [hk] at hn ⊢
  exact ⟨t, takeWhole_of_drained rfl hn ht, hmet⟩

end Loop

/-! ### Step 4 (R181, R182) -/

section Rest

variable {p : ReadProgress} {y : State × List Byte}

/-- What is still wanted is silence, and of the last silent frame begun an all-zero tail is kept (R181). -/
theorem silentTail_outcome (hnone : p.state.partialBytesOut = 0#32) (hempty : p.state.pfo = [])
    (hok : silentTail p = .ok y) :
    y.2 = p.out ++ zeros p.rem ∧ y.1.readFrameId = p.state.readFrameId ∧ y.1.pfo = [] ∧
      y.1.partialBytesOut.toNat =
        if p.rem % p.state.frameSizeOut.toNat = 0 then 0
        else p.state.frameSizeOut.toNat - p.rem % p.state.frameSizeOut.toNat := by
  obtain ⟨hwhole, rfl⟩ | ⟨hpart, s1, h1, rfl⟩ := silentTail_ok.1 hok
  · exact ⟨rfl, rfl, hempty, by rw [if_pos hwhole, hnone]; rfl⟩
  · obtain ⟨-, rfl⟩ := memWrite_ok.1 h1
    refine ⟨rfl, rfl, ?_, ?_⟩
    · rw [State.setPartialOut_pfo, State.setRegion_pfo_pfo, State.region_pfo, hempty]
      exact Memory.writeBytes_zeros rfl rfl
    · rw [if_neg hpart]
      exact toNat_ofNat_of_le (Nat.sub_le ..) (by omega)

/-- Nothing more is wanted: nothing happens (R182). -/
theorem fractionalFrame_none (hnone : p.rem = 0) (hok : fractionalFrame p = .ok y) : y = (p.state, p.out) := by
  obtain ⟨-, rfl⟩ | ⟨hsome, -⟩ := fractionalFrame_ok.1 hok
  · rfl
  · exact absurd hnone hsome

/-- One more frame is converted into `PFO`; its head is delivered and the rest of it stays pending (R182). -/
theorem fractionalFrame_some (hring : p.state.RingReady) (hconv : p.state.ConvertReady) (hempty : p.state.pfo = [])
    (hsome : p.rem ≠ 0) (hlt : p.rem < p.state.frameSizeOut.toNat) (hok : fractionalFrame p = .ok y) :
    y.2 = p.out ++ (p.state.converted (p.state.slot p.state.readFrameId.toNat)).take p.rem ∧
      y.1.partialBytesOut.toNat = p.state.frameSizeOut.toNat - p.rem ∧
      y.1.readFrameId.toNat = (p.state.readFrameId.toNat + 1) % p.state.numFrames.toNat ∧
      Memory.readBytes y.1.pfo 0 p.state.frameSizeOut.toNat =
        p.state.converted (p.state.slot p.state.readFrameId.toNat) := by
  obtain ⟨hnone, -⟩ | ⟨-, x, s1, head, hx, h1, hhead, rfl⟩ := fractionalFrame_ok.1 hok
  · exact absurd hnone hsome
  · cases (takeFrame_eq hring).symm.trans hx
    obtain ⟨-, rfl⟩ := memWrite_ok.1 h1
    obtain ⟨-, rfl⟩ := memRead_ok.1 hhead
    have hstored : Memory.readBytes
        (Memory.writeBytes p.state.pfo 0 (p.state.converted (p.state.slot p.state.readFrameId.toNat))) 0
        p.state.frameSizeOut.toNat = p.state.converted (p.state.slot p.state.readFrameId.toNat) := by
      rw [hempty, hconv.frameSizeOut, ← length_convertFrame]
      exact Memory.readBytes_writeBytes_same 0 _ rfl
    refine ⟨?_, toNat_ofNat_of_le (Nat.sub_le ..) (by omega), hring.advanceRead_readFrameId_toNat, hstored⟩
    exact congrArg (p.out ++ ·)
      ((Memory.take_readBytes _ _ hlt.le).symm.trans (congrArg (List.take p.rem) hstored))

end Rest

end Sys2Proof.Machine
end

section
/-! `READ` in closed form (spec/42_read.md rules R174, R183): the kept bytes, then the unread frames converted, then
silence. -/

namespace Sys2Proof.Machine

/-! ### The bytes delivered (R183) -/

theorem take_append_zeros (bs : List Byte) (n : Nat) :
    (bs ++ zeros n).take n = bs.take n ++ zeros (n - bs.length) := by
  rw [List.take_append, List.take_replicate, Nat.min_eq_left (Nat.sub_le ..)]

/-- The unread frames as the output side gets to see them. -/
def State.convertedFrames (s : State) : List (List Byte) := s.unreadFrames.map s.converted

/-- The first `n` of the bytes a block can deliver: the kept ones, the unread frames converted, and silence (R183). -/
def State.delivered (s : State) (n : Nat) : List Byte :=
  (s.kept ++ s.convertedFrames.flatten ++ zeros n).take n

section Delivered

variable {s t : State} {n : Nat}

@[simp] theorem State.length_convertedFrames (s : State) : s.convertedFrames.length = s.unread := by
  simp [State.convertedFrames]

theorem State.ConvertReady.length_of_mem_convertedFrames (h : s.ConvertReady) :
    ∀ f ∈ s.convertedFrames, f.length = s.frameSizeOut.toNat := by
  intro f hf
  obtain ⟨g, -, rfl⟩ := List.mem_map.1 hf
  rw [State.converted, length_convertFrame, h.frameSizeOut]

theorem State.ConvertReady.length_flatten_convertedFrames (h : s.ConvertReady) :
    s.convertedFrames.flatten.length = s.unread * s.frameSizeOut.toNat := by
  rw [length_flatten_of_length h.length_of_mem_convertedFrames, s.length_convertedFrames]

/-- As long as the kept bytes suffice, nothing else is delivered. -/
theorem State.delivered_of_le (hle : n ≤ s.partialBytesOut.toNat) : s.delivered n = s.kept.take n := by
  rw [State.delivered, List.append_assoc, List.take_append_of_le_length (s.length_kept.symm ▸ hle)]

/-- Behind the kept bytes come the converted frames, and silence behind those. -/
theorem State.delivered_of_ge (hge : s.partialBytesOut.toNat ≤ n) :
    s.delivered n = s.kept ++ (s.convertedFrames.flatten.take (n - s.partialBytesOut.toNat) ++
      zeros (n - s.partialBytesOut.toNat - s.convertedFrames.flatten.length)) := by
  rw [State.delivered, take_append_zeros, List.take_append, List.length_append, s.length_kept, Nat.sub_add_eq,
    List.take_of_length_le (s.length_kept.symm ▸ hge), List.append_assoc]

end Delivered

/-! ### Steps 3 and 4 together (R180 to R182) -/

/-- Where `READ` leaves the read cursor and the kept bytes when it has to deliver `rem` bytes from a ring that is not empty:
the ring drains, or the bytes end with a frame, or within one (R183). -/
def FramesOutcome (rem : Nat) (s t : State) : Prop :=
  if s.unread ≤ rem / s.frameSizeOut.toNat then
    t.readFrameId = s.writeFrameId ∧ (∀ a, Memory.read t.pfo a = 0#8) ∧
      t.partialBytesOut.toNat =
        (if rem % s.frameSizeOut.toNat = 0 then 0 else s.frameSizeOut.toNat - rem % s.frameSizeOut.toNat)
  else if rem % s.frameSizeOut.toNat = 0 then
    t.partialBytesOut = 0#32 ∧
      t.readFrameId.toNat = (s.readFrameId.toNat + rem / s.frameSizeOut.toNat) % s.numFrames.toNat
  else
    t.partialBytesOut.toNat = s.frameSizeOut.toNat - rem % s.frameSizeOut.toNat ∧
      t.readFrameId.toNat = (s.readFrameId.toNat + rem / s.frameSizeOut.toNat + 1) % s.numFrames.toNat ∧
      s.unreadFrames[rem / s.frameSizeOut.toNat]?.map s.converted =
        some (Memory.readBytes t.pfo 0 s.frameSizeOut.toNat)

section Frames

variable {s t u : State} {rem : Nat} {out : List Byte} {y : State × List Byte}

/-- The outcome from a state that step 1 has passed is the outcome from the state before. -/
theorem FramesOutcome.of_readFrame (hf : ReadFrame s t) (hr : t.readFrameId = s.readFrameId)
    (h : FramesOutcome rem t u) : FramesOutcome rem s u := by
  rwa [FramesOutcome, hf.unread hr, hf.unreadFrames hr, hf.converted, hf.frameSizeOut, hf.numFrames, hf.1, hr] at h

/-- The ring drains: every unread frame, then silence (R181). -/
theorem deliverFrames_drains (h : s.ReadReady) (hsome : s.unread ≠ 0) (hnone : s.partialBytesOut = 0#32)
    (hconv : s.ConvertReady) (hle : s.unread ≤ rem / s.frameSizeOut.toNat) (hok : deliverFrames rem out s = .ok y) :
    y.2 = out ++ (s.convertedFrames.flatten ++ zeros (rem - s.unread * s.frameSizeOut.toNat)) ∧
      FramesOutcome rem s y.1 := by
  obtain ⟨-, p, hp, hcase⟩ := deliverFrames_ok.1 hok
  obtain ⟨t, ht, hmet⟩ := takeWhole_drained (out := out) (rem := rem) h.ring hsome hle
  obtain ⟨hf, hpfo, hkept⟩ := takeWhole_frame ht
  cases ht.symm.trans hp
  obtain ⟨-, htail⟩ | ⟨hd, -⟩ := hcase
  · obtain ⟨hout, hread, hempty, hcount⟩ :=
      silentTail_outcome (hkept.trans hnone) (hpfo.trans (h.empty hnone)) htail
    have hfits := (Nat.le_div_iff_mul_le hconv.frameSizeOut_pos).1 hle
    dsimp only at hout hcount
    rw [hf.frameSizeOut, Nat.mul_comm, Nat.sub_mul_mod (Nat.mul_comm _ _ ▸ hfits)] at hcount
    rw [FramesOutcome, if_pos hle]
    refine ⟨hout.trans (List.append_assoc ..), hread.trans (hmet.trans hf.1), fun a => ?_, hcount⟩
    rw [hempty]
    rfl
  · cases hd

/-- The ring does not drain: whole frames, then the head of one more (R182). -/
theorem deliverFrames_not_drained (h : s.ReadReady) (hnone : s.partialBytesOut = 0#32) (hconv : s.ConvertReady)
    (hlt : rem / s.frameSizeOut.toNat < s.unread) (hok : deliverFrames rem out s = .ok y) :
    y.2 = out ++ s.convertedFrames.flatten.take rem ∧ FramesOutcome rem s y.1 := by
  obtain ⟨-, p, hp, hcase⟩ := deliverFrames_ok.1 hok
  obtain ⟨t, ht, hring, hread, hrest⟩ := takeWhole_not_drained (out := out) (rem := rem) h.ring hlt
  rw [← Nat.mod_eq_sub_div_mul] at ht
  obtain ⟨hf, hpfo, hkept⟩ := takeWhole_frame ht
  cases ht.symm.trans hp
  obtain ⟨hd, -⟩ | ⟨-, hfrac⟩ := hcase
  · cases hd
  · have hframe := hring.getElem?_unreadFrames hrest hlt
    have hconverted : s.convertedFrames[rem / s.frameSizeOut.toNat]? =
        some (s.converted (t.slot t.readFrameId.toNat)) := by
      rw [State.convertedFrames, List.getElem?_map, hframe, Option.map_some]
    have hbelow := Nat.mod_lt rem hconv.frameSizeOut_pos
    have htake := take_flatten_add hconv.length_of_mem_convertedFrames hconverted hbelow.le
    rw [Nat.div_add_mod'] at htake
    rw [htake, ← List.append_assoc, FramesOutcome, if_neg (Nat.not_le.2 hlt)]
    split_ifs with hwhole
    · cases fractionalFrame_none hwhole hfrac
      refine ⟨?_, hkept.trans hnone, hread⟩
      rw [hwhole, List.take_zero, List.append_nil]
      rfl
    · have hempty : t.pfo = [] := hpfo.trans (h.empty hnone)
      obtain ⟨hout, hcount, hread', hstored⟩ := fractionalFrame_some hring (hconv.of_readFrame hf) hempty hwhole
        (hf.frameSizeOut.symm ▸ hbelow) hfrac
      dsimp only at hout hcount hread' hstored
      rw [hf.converted] at hout hstored
      rw [hf.frameSizeOut] at hcount hstored
      rw [hread, hf.numFrames, Nat.mod_add_mod] at hread'
      exact ⟨hout, hcount, hread', by rw [hframe, hstored, Option.map_some]⟩

/-- The converted frames, and silence where they do not suffice (R180 to R182). -/
theorem deliverFrames_outcome (h : s.ReadReady) (hsome : s.unread ≠ 0) (hnone : s.partialBytesOut = 0#32)
    (hconv : s.ConvertReady) (hok : deliverFrames rem out s = .ok y) :
    y.2 = out ++ (s.convertedFrames.flatten.take rem ++ zeros (rem - s.convertedFrames.flatten.length)) ∧
      FramesOutcome rem s y.1 := by
  have hlength := hconv.length_flatten_convertedFrames
  rcases Nat.lt_or_ge (rem / s.frameSizeOut.toNat) s.unread with hlt | hle
  · obtain ⟨hout, houtcome⟩ := deliverFrames_not_drained h hnone hconv hlt hok
    have hwithin := (Nat.div_lt_iff_lt_mul hconv.frameSizeOut_pos).1 hlt
    refine ⟨?_, houtcome⟩
    rw [hout, Nat.sub_eq_zero_of_le (by omega), show zeros 0 = [] from rfl, List.append_nil]
  · obtain ⟨hout, houtcome⟩ := deliverFrames_drains h hsome hnone hconv hle hok
    have hfits := (Nat.le_div_iff_mul_le hconv.frameSizeOut_pos).1 hle
    refine ⟨?_, houtcome⟩
    rw [hout, hlength, List.take_of_length_le (by omega)]

end Frames

/-! ### The whole body (R183) -/

/-- Where `READ n` leaves the read cursor and the kept bytes (R183). -/
def ReadOutcome (n : Nat) (s t : State) : Prop :=
  if n ≤ s.partialBytesOut.toNat then
    t.readFrameId = s.readFrameId ∧ t.partialBytesOut.toNat = s.partialBytesOut.toNat - n ∧ t.kept = s.kept.drop n
  else if s.unread = 0 then t.readFrameId = s.readFrameId ∧ t.partialBytesOut = 0#32
  else FramesOutcome (n - s.partialBytesOut.toNat) s t

section Body

variable {s : State} {n : Nat} {y : State × List Byte}

/-- The kept bytes suffice (R173). -/
theorem readBody_kept (h : s.ReadReady) (hle : n ≤ s.partialBytesOut.toNat) (hok : readBody n s = .ok y) :
    y.2 = s.kept.take n ∧ y.1.readFrameId = s.readFrameId ∧
      y.1.partialBytesOut.toNat = s.partialBytesOut.toNat - n ∧ y.1.kept = s.kept.drop n := by
  obtain ⟨x, hx, ⟨-, rfl⟩ | ⟨hlt, -⟩ | ⟨hlt, -⟩⟩ := readBody_ok.1 hok
  · obtain ⟨hout, hcount, hkept⟩ := deliverPending_first h hle hx
    exact ⟨hout, (deliverPending_frame hx).2, hcount, hkept⟩
  · omega
  · omega

/-- The kept bytes do not suffice and the ring is empty: silence, of which no tail is kept (R174). -/
theorem readBody_underrun (h : s.ReadReady) (hlt : s.partialBytesOut.toNat < n)
    (hempty : s.readFrameId = s.writeFrameId) (hok : readBody n s = .ok y) :
    y.2 = s.kept ++ zeros (n - s.partialBytesOut.toNat) ∧ y.1.readFrameId = s.readFrameId ∧
      y.1.partialBytesOut = 0#32 ∧ y.1.pfo = [] := by
  obtain ⟨x, hx, hcase⟩ := readBody_ok.1 hok
  obtain ⟨hout, hnone⟩ := deliverPending_all hlt.le hx
  obtain ⟨hf, hread⟩ := deliverPending_frame hx
  obtain ⟨hle, -⟩ | ⟨-, -, rfl⟩ | ⟨-, hunread, -⟩ := hcase
  · omega
  · exact ⟨congrArg (· ++ _) hout, hread, hnone, (deliverPending_readReady h hx).empty hnone⟩
  · exact absurd (hread.trans (hempty.trans hf.1.symm)) hunread

/-- The kept bytes do not suffice and frames are unread (R180 to R182). -/
theorem readBody_frames (h : s.ReadReady) (hlt : s.partialBytesOut.toNat < n) (hconv : s.ConvertReady)
    (hunread : s.readFrameId ≠ s.writeFrameId) (hok : readBody n s = .ok y) :
    y.2 = s.delivered n ∧ FramesOutcome (n - s.partialBytesOut.toNat) s y.1 := by
  obtain ⟨x, hx, hcase⟩ := readBody_ok.1 hok
  obtain ⟨hout, hnone⟩ := deliverPending_all hlt.le hx
  obtain ⟨hf, hread⟩ := deliverPending_frame hx
  obtain ⟨hle, -⟩ | ⟨-, hempty, -⟩ | ⟨-, hmore, hframes⟩ := hcase
  · omega
  · exact absurd (hread.symm.trans (hempty.trans hf.1)) hunread
  · have hready := deliverPending_readReady h hx
    obtain ⟨hall, houtcome⟩ := deliverFrames_outcome hready
      (fun hzero => hmore (hready.ring.unread_eq_zero_iff.1 hzero)) hnone (hconv.of_readFrame hf) hframes
    refine ⟨?_, houtcome.of_readFrame hf hread⟩
    rw [hall, hout, State.delivered_of_ge hlt.le, State.convertedFrames, State.convertedFrames, hf.converted,
      hf.unreadFrames hread]

/-- What a `READ` that gets past its checks delivers, and where it leaves the read cursor and the kept bytes (R183). -/
theorem readBody_outcome (h : s.Legal) (hlive : s.liveStorage = true)
    (hconv : s.mustConvert n = true → s.convSupported = true) (hok : readBody n s = .ok y) :
    y.2 = s.delivered n ∧ ReadOutcome n s y.1 := by
  have hready := h.readReady hlive
  rw [ReadOutcome]
  split_ifs with hle hnone
  · obtain ⟨hout, houtcome⟩ := readBody_kept hready hle hok
    exact ⟨hout.trans (State.delivered_of_le hle).symm, houtcome⟩
  · have hlt := Nat.lt_of_not_le hle
    obtain ⟨hout, hread, hcount, -⟩ := readBody_underrun hready hlt (hready.ring.unread_eq_zero_iff.1 hnone) hok
    have hframes : s.convertedFrames = [] := List.length_eq_zero_iff.1 (s.length_convertedFrames.trans hnone)
    refine ⟨?_, hread, hcount⟩
    rw [hout, State.delivered_of_ge hlt.le, hframes, List.flatten_nil, List.take_nil, List.nil_append, List.length_nil,
      Nat.sub_zero]
  · have hlt := Nat.lt_of_not_le hle
    have hunread : s.readFrameId ≠ s.writeFrameId := fun heq => hnone (hready.ring.unread_eq_zero_iff.2 heq)
    exact readBody_frames hready hlt (h.convertReady (hconv (mustConvert_iff.2 ⟨hlt, hunread⟩))) hunread hok

/-- A `READ` that gets past its checks in a legal state runs its body and answers with the bytes put out. -/
theorem exec_read_ok {len : Word} (h : s.Legal) (hlive : s.liveStorage = true) (hlen : len ≠ 0#32)
    (hconv : s.mustConvert len.toNat = true → s.convSupported = true) :
    ∃ y, readBody len.toNat s = .ok y ∧ exec (.read len) s = .next (y.1.respond (okResponse s.fault y.2)) := by
  obtain ⟨y, hy⟩ := readBody_answers h hlive hconv
  obtain ⟨-, -, -, -, -, -, -, -, hfault, -⟩ := readBody_frame hy
  exact ⟨y, hy, by rw [exec_read_finish hlive hlen hconv, hy, finish_ok, hfault]⟩

end Body

/-- Settles O28: with nothing kept the body writes nothing, and otherwise its first step empties `PFO`. -/
theorem readOfAnEmptyRingIsSilence : Obligations.ReadOfAnEmptyRingIsSilence := by
  refine ⟨fun s len hlive hlen hkept hempty => ⟨_, exec_read_empty hlive hlen hkept hempty, ⟨rfl, rfl, rfl⟩,
    sameBlock_refl s, rfl, ⟨rfl, rfl, rfl⟩, rfl, rfl, rfl⟩, fun s len h hlive hlt hempty => ?_⟩
  have hlen : len ≠ 0#32 := ne_zero_of_toNat_pos (Nat.zero_lt_of_lt hlt)
  obtain ⟨y, hy, hexec⟩ := exec_read_ok h hlive hlen fun hmust => absurd hempty (mustConvert_iff.1 hmust).2
  obtain ⟨hout, hread, hcount, hpfo⟩ := readBody_underrun (h.readReady hlive) hlt hempty hy
  obtain ⟨hwrite, hin, hsize, hfmt, hlivePfo, -, howner, hports, hfault, henv, htraffic⟩ := readBody_frame hy
  refine ⟨_, hexec, ⟨rfl, howner, ?_⟩, ⟨hwrite, hread⟩, hin, hcount, hpfo, hsize, hfmt, hlivePfo, hfault, henv, htraffic⟩
  rw [State.respond_ports, hports, howner, hout]

/-- Settles O29: past the checks the body runs to its end, and its outcome is the closed form. -/
theorem readCompletes : Obligations.ReadCompletes := by
  intro s len h hlive hlen hconv
  have hsupported (hmust : s.mustConvert len.toNat = true) : s.convSupported = true :=
    hconv (mustConvert_iff.1 hmust).1 (mustConvert_iff.1 hmust).2
  obtain ⟨y, hy, hexec⟩ := exec_read_ok h hlive hlen hsupported
  obtain ⟨hdata, houtcome⟩ := readBody_outcome h hlive hsupported hy
  obtain ⟨hwrite, hin, hsize, hfmt, hlivePfo, -, howner, hports, hfault, henv, htraffic⟩ := readBody_frame hy
  refine ⟨_, y.2, hexec, ⟨rfl, howner, ?_⟩, hdata, readBody_length h hsupported hy, houtcome, hwrite, hin, hsize, hfmt,
    hlivePfo, hfault, henv, htraffic⟩
  rw [State.respond_ports, hports, howner]

end Sys2Proof.Machine
end

section
/-! The guard and the port phases, move by move (spec/43_guard.md rules R200, R201, R203 to R205, R209, R211). -/

namespace Sys2Proof.Machine

/-! ### What each enabled move does (R201, R204, R205) -/

/-- In `t` a command finds the same block as in `s`: the registers and memories, `FAULT` and the parameters. -/
abbrev SameView (s t : State) : Prop := SameBlock s t ∧ t.fault = s.fault ∧ t.cfg = s.cfg

/-- The state after the next move, in which port `p` hands the response `r` over. -/
def State.handedOver (s : State) (p : Nat) (r : Response) : State :=
  (s.afterMove.setPort p .idle).emit (.response p r)

/-- A hand-over does not concern the block. -/
theorem handedOver_sameView (s : State) (p : Nat) (r : Response) : SameView s (s.handedOver p r) := by
  simp [SameView, SameBlock, SameCursors, SameInput, SameOutput, State.handedOver]

theorem handedOver_trace (s : State) (p : Nat) (r : Response) :
    (s.handedOver p r).trace = s.trace ++ [.response p r] := by
  simp [State.handedOver]

section Moves

variable {s : State} {p : Nat} {req : Request}

theorem tryAcquire_of_locked (hp : s.ports[p]? = some (.waiting req)) (hlock : s.lock = true) :
    tryAcquire p s = .next s := by
  unfold tryAcquire
  rw [hp]
  exact if_pos hlock

theorem tryAcquire_of_free (hp : s.ports[p]? = some (.waiting req)) (hfree : s.lock = false) :
    tryAcquire p s = .next (s.acquire p req) := by
  unfold tryAcquire
  rw [hp]
  exact if_neg (ne_true_of_eq_false hfree)

theorem handOver_of_responding {r : Response} (hp : s.ports[p]? = some (.responding r)) :
    handOver p s = .next ((s.setPort p .idle).emit (.response p r)) := by
  unfold handOver
  rw [hp]

theorem fetch_of_holding {i : Instr} (hlock : s.lock = true) (hp : s.ports[s.owner]? = some (.holding req))
    (hi : decode s.cfg.extMax req = .ok i) : s.fetch = .ok i :=
  fetch_ok.2 ⟨req, heldRequest_some.2 ⟨hlock, hp⟩, hi⟩

theorem step_tryAcquire (h : s.nextMove = .tryAcquire p) : step s = tryAcquire p s.afterMove := by
  rw [step, h, applyMove]

theorem step_runBody (h : s.nextMove = .runBody) : step s = runBody s.afterMove := by
  rw [step, h, applyMove]

theorem step_handOver {r : Response} (h : s.nextMove = .handOver p) (hp : s.ports[p]? = some (.responding r)) :
    step s = .next (s.handedOver p r) := by
  rw [step, h, applyMove]
  exact handOver_of_responding (s := s.afterMove) hp

end Moves

/-- Settles O34: the request the owner holds is the one fetched, and taking the move does not concern it. -/
theorem stepRunsTheHeldCommand : Obligations.StepRunsTheHeldCommand := by
  intro s req i hmove hlock hp hi
  rw [step_runBody hmove]
  exact runBody_of_fetch (fetch_of_holding (s := s.afterMove) hlock hp hi)

/-- Settles O36: by the value of `LOCK` the move is an acquire or nothing. -/
theorem tryAcquireIsTestAndSet : Obligations.TryAcquireIsTestAndSet := by
  intro s p req hmove hp
  rw [step_tryAcquire hmove]
  cases hlock : s.lock with
  | false =>
    exact ⟨_, tryAcquire_of_free (s := s.afterMove) hp hlock, ⟨rfl, rfl, rfl⟩, sameBlock_refl s, rfl, rfl, rfl, rfl, rfl⟩
  | true =>
    exact ⟨_, tryAcquire_of_locked (s := s.afterMove) hp hlock, ⟨hlock, rfl, rfl⟩, sameBlock_refl s, rfl, rfl, rfl, rfl,
      rfl⟩

/-- Settles O37: only the port's phase and what was handed out are written. -/
theorem handOverIdlesThePort : Obligations.HandOverIdlesThePort := by
  intro s p r hmove hp
  obtain ⟨hblock, hfault, hcfg⟩ := handedOver_sameView s p r
  exact ⟨_, step_handOver hmove hp, rfl, handedOver_trace s p r, rfl, rfl, hblock, hfault, hcfg⟩

/-! ### How every command ends (R102, R205) -/

/-- The command `i` leads from `s` to `t` and ends there with the response `r` at its owner's port: the response word shows
`FAULT` as it stands, and data bytes follow only a `READ` that succeeded. How many follow, `EndsInAnswer` says of legal
states. -/
structure EndsWith (i : Instr) (s t : State) (r : Response) : Prop where
  answered : Answered s t r
  word : ∃ ok cause, r.word = responseWord ok cause t.fault
  data : r.data = [] ∨ ((∃ len, i = .read len) ∧ r.word.getLsbD 0 = true)

section EndsWith

variable {i : Instr} {s u : State}

/-- A body that kept the owner and the ports ends in its owner's answer, whatever else it did. -/
theorem answered_respond (r : Response) (hports : u.ports = s.ports) (howner : u.owner = s.owner) :
    Answered s (u.respond r) r := by
  refine ⟨rfl, howner, ?_⟩
  rw [State.respond_ports, hports, howner]

theorem endsWith_fail {c : Cause} (hports : u.ports = s.ports) (howner : u.owner = s.owner) :
    EndsWith i s (u.respond (failResponse c u.fault)) (failResponse c u.fault) :=
  ⟨answered_respond _ hports howner, ⟨_, _, rfl⟩, .inl rfl⟩

theorem endsWith_ok (hports : u.ports = s.ports) (howner : u.owner = s.owner) :
    EndsWith i s (u.respond (okResponse u.fault [])) (okResponse u.fault []) :=
  ⟨answered_respond _ hports howner, ⟨_, _, rfl⟩, .inl rfl⟩

theorem endsWith_read {len : Word} {data : List Byte} (hports : u.ports = s.ports) (howner : u.owner = s.owner) :
    EndsWith (.read len) s (u.respond (okResponse u.fault data)) (okResponse u.fault data) :=
  ⟨answered_respond _ hports howner, ⟨_, _, rfl⟩, .inr ⟨⟨len, rfl⟩, okResponse_ok ..⟩⟩

/-- Every next state of every command is an answer to its owner. -/
theorem exec_endsWith {t : State} (h : exec i s = .next t) : ∃ r, EndsWith i s t r := by
  obtain ⟨c, rfl⟩ | rfl | ⟨c, rfl⟩ | ⟨d, -, rfl⟩ | ⟨d, -, rfl⟩ | ⟨len, b, u, -, hu, rfl⟩ | ⟨len, y, rfl, hy, rfl⟩ |
    ⟨-, rfl⟩ := exec_next h
  · exact ⟨_, endsWith_fail rfl rfl⟩
  · exact ⟨_, endsWith_fail (u := s.afterDraw) rfl rfl⟩
  · exact ⟨_, endsWith_fail (u := s.recordFault c) rfl rfl⟩
  · exact ⟨_, endsWith_ok (u := s.afterDraw.commitInput d) rfl rfl⟩
  · exact ⟨_, endsWith_ok (u := s.afterDraw.commitOutput d) rfl rfl⟩
  · obtain ⟨-, -, -, howner, hports, -⟩ := writeBody_frame hu
    exact ⟨_, endsWith_ok hports howner⟩
  · obtain ⟨-, -, -, -, -, -, howner, hports, -⟩ := readBody_frame hy
    exact ⟨_, endsWith_read hports howner⟩
  · exact ⟨_, endsWith_ok (u := s.release) rfl rfl⟩

end EndsWith

/-- Settles O39: each of the ends a command can come to is an answer to the guard's owner. -/
theorem everyPathReleasesTheGuard : Obligations.EveryPathReleasesTheGuard := by
  intro i s t h
  obtain ⟨henv, -⟩ := exec_keepsRecord h
  obtain ⟨r, hanswered, ⟨ok, cause, hword⟩, hdata⟩ := exec_endsWith h
  obtain ⟨-, -, -, hfaults, -⟩ := responseWord_fields ok cause t.fault
  refine ⟨r, hanswered, henv, fun hfailed => ?_, fun hnoRead => ?_, hword ▸ hfaults⟩
  · exact hdata.resolve_right fun ⟨_, hok⟩ => ne_true_of_eq_false hfailed hok
  · exact hdata.resolve_right fun ⟨⟨len, hread⟩, _⟩ => hnoRead len hread

/-! ### What the other moves leave alone (R201, R209) -/

/-- Settles O41: the moves other than those two write port phases, the guard and what was handed out only. -/
theorem onlyBodiesWriteTheBlock : Obligations.OnlyBodiesWriteTheBlock := by
  intro s t h hbody hreset
  obtain ⟨p, req, -, h⟩ | ⟨p, -, h⟩ | ⟨i, hmove, -, -⟩ | ⟨p, -, h⟩ | ⟨hmove, -⟩ | ⟨n, -, rfl⟩ | ⟨n, v, -, rfl⟩ :=
    applyMove_next h
  · obtain ⟨-, ⟨i, -, rfl⟩ | ⟨e, -, -, rfl⟩⟩ := presentRequest_next h <;> exact ⟨sameBlock_refl s, rfl⟩
  · obtain ⟨req, -, ⟨-, rfl⟩ | ⟨-, rfl⟩⟩ := tryAcquire_next h <;> exact ⟨sameBlock_refl s, rfl⟩
  · exact absurd hmove hbody
  · obtain ⟨r, -, rfl⟩ := handOver_next h
    obtain ⟨hblock, hfault, -⟩ := handedOver_sameView s p r
    exact ⟨hblock, hfault⟩
  · exact absurd hmove hreset
  · exact ⟨sameBlock_refl s, rfl⟩
  · exact ⟨sameBlock_refl s, rfl⟩

/-! ### The phase table (R211) -/

/-- Setting the phase of one port leaves the others as they were. -/
theorem phase_of_set {ports : List Phase} {p q : Nat} {ph ph' new : Phase} (h : ports[q]? = some ph)
    (h' : (ports.set p new)[q]? = some ph') : ph' = ph ∨ (p = q ∧ ph' = new) := by
  rcases eq_or_ne p q with rfl | hne
  · rw [List.getElem?_set_self', h] at h'
    exact .inr ⟨rfl, (Option.some.inj h').symm⟩
  · rw [List.getElem?_set_ne hne, h] at h'
    exact .inl (Option.some.inj h').symm

/-- Settles O38: each move but hardware reset sets the phase of at most one port, in its own row of the table. -/
theorem phasesMoveByTheTable : Obligations.PhasesMoveByTheTable := by
  intro s t p ph ph' h hp hp'
  obtain ⟨q, req, hmove, h⟩ | ⟨q, hmove, h⟩ | ⟨i, hmove, hfetch, h⟩ | ⟨q, hmove, h⟩ | ⟨hmove, rfl⟩ | ⟨n, -, rfl⟩ |
    ⟨n, v, -, rfl⟩ := applyMove_next h
  · obtain ⟨hq, ⟨i, hi, rfl⟩ | ⟨e, he, -, rfl⟩⟩ := presentRequest_next h
    · obtain hsame | ⟨rfl, hnew⟩ := phase_of_set hp hp'
      · exact .inl hsame
      · exact .inr (.inr (.inl ⟨req, i, Option.some.inj (hp.symm.trans hq), hmove, hi, hnew⟩))
    · obtain hsame | ⟨rfl, hnew⟩ := phase_of_set hp hp'
      · exact .inl hsame
      · exact .inr (.inr (.inr (.inl ⟨req, e, Option.some.inj (hp.symm.trans hq), hmove, he, hnew⟩)))
  · obtain ⟨req, hq, ⟨-, rfl⟩ | ⟨hfree, rfl⟩⟩ := tryAcquire_next h
    · exact .inl (Option.some.inj (hp'.symm.trans hp))
    · obtain hsame | ⟨rfl, hnew⟩ := phase_of_set hp hp'
      · exact .inl hsame
      · exact .inr (.inr (.inr (.inr (.inl
          ⟨req, Option.some.inj (hp.symm.trans hq), hmove, hfree, rfl, rfl, hnew⟩))))
  · obtain ⟨req, hheld, -⟩ := fetch_ok.1 hfetch
    obtain ⟨-, howner⟩ := heldRequest_some.1 hheld
    obtain ⟨r, ⟨hlock, -, hports⟩, -, -⟩ := exec_endsWith h
    rw [hports] at hp'
    obtain hsame | ⟨rfl, hnew⟩ := phase_of_set hp hp'
    · exact .inl hsame
    · exact .inr (.inr (.inr (.inr (.inr (.inl
        ⟨req, r, Option.some.inj (hp.symm.trans howner), hmove, rfl, hlock, hnew⟩)))))
  · obtain ⟨r, hq, rfl⟩ := handOver_next h
    obtain hsame | ⟨rfl, hnew⟩ := phase_of_set hp hp'
    · exact .inl hsame
    · exact .inr (.inr (.inr (.inr (.inr (.inr ⟨r, Option.some.inj (hp.symm.trans hq), hmove, hnew⟩)))))
  · exact .inr (.inl ⟨hmove, List.eq_of_mem_replicate (List.mem_of_getElem? hp')⟩)
  · exact .inl (Option.some.inj (hp'.symm.trans hp))
  · exact .inl (Option.some.inj (hp'.symm.trans hp))

/-! ### The guard in a legal state (R47, R201, R203, R204) -/

section Legal

variable {s : State}

/-- A port that holds is the owner of the taken guard. -/
theorem State.GuardLegal.owner_of_holding (h : s.GuardLegal) {p : Nat} {req : Request}
    (hp : s.ports[p]? = some (.holding req)) : s.lock = true ∧ s.owner = p := by
  obtain ⟨-, hholds, -, -⟩ := h
  refine (hholds p (List.getElem?_eq_some_iff.1 hp).1).1 ?_
  rw [hp]
  rfl

/-- The owner of the taken guard holds a request that decodes. -/
theorem State.GuardLegal.fetch (h : s.GuardLegal) (hlock : s.lock = true) : ∃ i, s.fetch = .ok i := by
  obtain ⟨-, hholds, howner, hlatched⟩ := h
  have hmap := (hholds s.owner (howner hlock)).2 ⟨hlock, rfl⟩
  obtain ⟨ph, hp, hph⟩ := Option.map_eq_some_iff.1 hmap
  have hlatch := hlatched ph (List.mem_of_getElem? hp)
  cases ph with
  | holding req =>
    cases hi : decode s.cfg.extMax req with
    | ok i => exact ⟨i, fetch_of_holding hlock hp hi⟩
    | error e => simp [Phase.latchLegal, hi, Except.toOption] at hlatch
  | _ => cases hph

end Legal

/-- Settles O51: the request that is held decodes, and in a legal state every command answers. -/
theorem heldCommandsAlwaysAnswer : Obligations.HeldCommandsAlwaysAnswer := by
  intro s h hlock hmove
  obtain ⟨i, hfetch⟩ := h.afterMove.guard.fetch hlock
  obtain ⟨t, ht⟩ := exec_answers i h.afterMove
  obtain ⟨r, ⟨hreleased, -⟩, -, -⟩ := exec_endsWith ht
  exact ⟨t, by rw [step_runBody hmove, runBody_of_fetch hfetch, ht], hreleased⟩

/-- Settles O55: each of the two ports is the one owner. -/
theorem atMostOnePortHolds : Obligations.AtMostOnePortHolds := by
  intro s p q req req' h hp hq
  obtain ⟨hlock, rfl⟩ := h.guard.owner_of_holding hp
  obtain ⟨-, hsame⟩ := h.guard.owner_of_holding hq
  exact ⟨hsame, hlock, rfl⟩

end Sys2Proof.Machine
end

section
/-! Commands issued through the ports, one after the other: the round trip as a run of the whole machine
(spec/43_guard.md rule R211, spec/60_exceptions.md rule R224, spec/95_test_vectors.md X1). -/

namespace Sys2Proof.Machine

/-! ### Runs -/

theorem core_run_append {j k : Nat} {s t u : State} (h : core.run j s = .next t) (h' : core.run k t = .next u) :
    core.run (j + k) s = .next u := by
  induction j generalizing s with
  | zero =>
    cases h
    rwa [Nat.zero_add]
  | succ j ih =>
    obtain ⟨v, hv, hrest⟩ := core_run_succ.1 h
    rw [Nat.add_right_comm]
    exact core_run_succ.2 ⟨v, hv, ih hrest⟩

theorem core_run_legal {k : Nat} {s t : State} (h : s.Legal) (hrun : core.run k s = .next t) : t.Legal := by
  induction k generalizing s with
  | zero =>
    cases hrun
    exact h
  | succ k ih =>
    obtain ⟨u, hu, hrest⟩ := core_run_succ.1 hrun
    exact ih (stepKeepsLegal s u h hu) hrest

/-! ### What two states with the same block have in common -/

section View

variable {s t : State}

theorem SameView.convSupported (h : SameView s t) : t.convSupported = s.convSupported := by
  obtain ⟨⟨-, ⟨-, -, -, -, hfmtIn, -⟩, -, -, hfmtOut, hlive, -⟩, -, hcfg⟩ := h
  rw [State.convSupported, State.convSupported, hfmtIn, hfmtOut, hlive, hcfg]

theorem SameView.converted (h : SameView s t) : t.converted = s.converted := by
  obtain ⟨⟨-, ⟨-, -, -, -, hfmtIn, -⟩, -, -, hfmtOut, -⟩, -⟩ := h
  funext f
  rw [State.converted, State.converted, hfmtIn, hfmtOut]

theorem SameView.unreadFrames (h : SameView s t) : t.unreadFrames = s.unreadFrames := by
  obtain ⟨⟨⟨hwrite, hread⟩, ⟨-, hsize, hnum, -, -, -, -, hstorage, -⟩, -⟩, -⟩ := h
  have hslot : t.slot = s.slot := by
    funext j
    rw [State.slot, State.slot, hstorage, hsize]
  rw [State.unreadFrames, State.unreadFrames, State.unread, State.unread, hwrite, hread, hnum, hslot]

end View

/-! ### One command, from its request to its hand-over (R211) -/

/-- The state in which port `p` has presented and acquired the guard for the command `i`. -/
def State.acquiredFor (s : State) (p : Nat) (i : Instr) : State :=
  (s.afterMove.setPort p (.waiting (encode i))).afterMove.acquire p (encode i)

/-- On a quiet block, port `p` issues the command `i` next, and the moves `ms` follow. -/
structure State.Issues (s : State) (p : Nat) (i : Instr) (ms : List Move) : Prop where
  quiet : s.Quiet
  port_lt : p < s.ports.length
  wellFormed : i.wellFormed s.cfg.extMax = true
  schedule : s.schedule = commandMoves p i ++ ms

section Issues

variable {s t : State} {p : Nat} {i : Instr} {ms : List Move} {r : Response}

theorem State.Issues.idle (h : s.Issues p i ms) : s.ports[p]? = some .idle := by
  obtain ⟨-, hidle⟩ := h.quiet
  rw [List.getElem?_eq_getElem h.port_lt, hidle _ (List.getElem_mem h.port_lt)]

theorem State.Issues.decode (h : s.Issues p i ms) : decode s.cfg.extMax (encode i) = .ok i :=
  decodeOfEncode _ _ h.wellFormed

/-- The request is legal, so it waits; the guard is free, so it is acquired. -/
theorem State.Issues.run_acquire (h : s.Issues p i ms) : core.run 2 s = .next (s.acquiredFor p i) := by
  obtain ⟨hfree, -⟩ := h.quiet
  have hpresent : step s = .next (s.afterMove.setPort p (.waiting (encode i))) := by
    rw [step_present (nextMove_of_schedule h.schedule)]
    exact presentRequest_of_decode_ok (s := s.afterMove) h.idle h.decode
  have hacquire : step (s.afterMove.setPort p (.waiting (encode i))) = .next (s.acquiredFor p i) := by
    have hnext : (s.afterMove.setPort p (.waiting (encode i))).nextMove = .tryAcquire p :=
      nextMove_of_schedule (afterMove_schedule_of_schedule h.schedule)
    rw [step_tryAcquire hnext]
    exact tryAcquire_of_free (s := (s.afterMove.setPort p _).afterMove) (List.getElem?_set_self h.port_lt) hfree
  exact core_run_succ.2 ⟨_, hpresent, core_run_succ.2 ⟨_, hacquire, rfl⟩⟩

theorem State.Issues.acquiredFor_schedule (h : s.Issues p i ms) :
    (s.acquiredFor p i).schedule = .runBody :: .handOver p :: ms :=
  congrArg (·.tail.tail) h.schedule

theorem State.Issues.acquiredFor_fetch (h : s.Issues p i ms) : (s.acquiredFor p i).afterMove.fetch = .ok i := by
  refine fetch_of_holding rfl ?_ h.decode
  exact List.getElem?_set_self (h.port_lt.trans_eq List.length_set.symm)

theorem State.Issues.legal (h : s.Issues p i ms) (hlegal : s.Legal) : (s.acquiredFor p i).afterMove.Legal :=
  (core_run_legal hlegal h.run_acquire).afterMove

/-- Where the body's outcome is known, so is that of the four moves of the command. -/
theorem State.Issues.run (h : s.Issues p i ms) (hexec : exec i (s.acquiredFor p i).afterMove = .next t)
    (hr : Answered (s.acquiredFor p i).afterMove t r) : core.run 4 s = .next (t.handedOver p r) := by
  obtain ⟨⟨-, hschedule, -⟩, -⟩ := exec_keepsRecord hexec
  obtain ⟨-, -, hports⟩ := hr
  have hbody : step (s.acquiredFor p i) = .next t := by
    rw [step_runBody (nextMove_of_schedule h.acquiredFor_schedule), runBody_of_fetch h.acquiredFor_fetch, hexec]
  have hhandOver : step t = .next (t.handedOver p r) := by
    refine step_handOver (nextMove_of_schedule
      (hschedule.trans (afterMove_schedule_of_schedule h.acquiredFor_schedule)))
      ((congrArg (·[p]?) hports).trans (List.getElem?_set_self ?_))
    exact h.port_lt.trans_eq (List.length_set.trans List.length_set).symm
  exact core_run_append (j := 2) (k := 2) h.run_acquire
    (core_run_succ.2 ⟨_, hbody, core_run_succ.2 ⟨_, hhandOver, rfl⟩⟩)

/-- The port went through its phases and back to `IDLE`, and no other port moved. -/
theorem handedOver_ports (hr : Answered (s.acquiredFor p i).afterMove t r) :
    (t.handedOver p r).ports = s.ports.set p .idle := by
  obtain ⟨-, -, hports⟩ := hr
  have hchain : (t.handedOver p r).ports =
      (((s.ports.set p (.waiting (encode i))).set p (.holding (encode i))).set p (.responding r)).set p .idle :=
    congrArg (·.set p .idle) hports
  rw [hchain, List.set_set, List.set_set, List.set_set]

/-- The four moves of one command lead from `s` to `t`, where the block is quiet again and the moves `ms` follow. -/
structure CommandRun (s t : State) (ms : List Move) : Prop where
  run : core.run 4 s = .next t
  quiet : t.Quiet
  schedule : t.schedule = ms
  ports : t.ports.length = s.ports.length

theorem State.Issues.commandRun (h : s.Issues p i ms) (hexec : exec i (s.acquiredFor p i).afterMove = .next t)
    (hr : Answered (s.acquiredFor p i).afterMove t r) : CommandRun s (t.handedOver p r) ms := by
  obtain ⟨⟨-, hschedule, -⟩, -⟩ := exec_keepsRecord hexec
  obtain ⟨-, hidle⟩ := h.quiet
  have hports := handedOver_ports hr
  refine ⟨h.run hexec hr, ⟨hr.1, fun ph hph => ?_⟩, ?_, ?_⟩
  · rw [hports] at hph
    exact (List.mem_or_eq_of_mem_set hph).elim (hidle ph) id
  · exact afterMove_schedule_of_schedule (hschedule.trans (afterMove_schedule_of_schedule h.acquiredFor_schedule))
  · rw [hports, List.length_set]

/-- The moves around a body do not concern the block. -/
theorem acquiredFor_sameView (s : State) (p : Nat) (i : Instr) : SameView s (s.acquiredFor p i).afterMove := by
  simp [SameView, SameBlock, SameCursors, SameInput, SameOutput, State.acquiredFor]

theorem acquiredFor_trace (s : State) (p : Nat) (i : Instr) : (s.acquiredFor p i).afterMove.trace = s.trace := by
  simp [State.acquiredFor]

theorem respond_sameView (s : State) (r : Response) : SameView s (s.respond r) :=
  ⟨sameBlock_refl s, rfl, rfl⟩

/-- A command that a port of a legal block issues finds the block as it was; and however its body ends there, the block is
quiet again after the hand-over. -/
theorem State.Issues.body (h : s.Issues p i ms) (hlegal : s.Legal) :
    ∃ x : State, x.Legal ∧ SameView s x ∧ x.trace = s.trace ∧
      ∀ {u : State} {r : Response}, exec i x = .next (u.respond r) → u.ports = x.ports → u.owner = x.owner →
        CommandRun s ((u.respond r).handedOver p r) ms :=
  ⟨_, h.legal hlegal, acquiredFor_sameView s p i, acquiredFor_trace s p i,
    fun hexec hports howner => h.commandRun hexec (answered_respond _ hports howner)⟩

end Issues

/-! ### What the block holds between two commands -/

/-- The formats convert, no fault has been met, no part of a frame is held or kept, and these are the unread frames. -/
structure State.Queues (s : State) (fs : List (List Byte)) : Prop where
  liveStorage : s.liveStorage = true
  convSupported : s.convSupported = true
  partialBytesIn : s.partialBytesIn = 0#32
  partialBytesOut : s.partialBytesOut = 0#32
  good : s.Good
  unreadFrames : s.unreadFrames = fs

section Queues

variable {s t : State} {fs : List (List Byte)} {p : Nat} {ms : List Move}

theorem State.Queues.of_sameView (h : s.Queues fs) (hv : SameView s t) : t.Queues fs := by
  have hconv := hv.convSupported
  have hframes := hv.unreadFrames
  obtain ⟨⟨-, ⟨hpartial, -, -, -, -, hlive, -⟩, hkept, -⟩, hfault, -⟩ := hv
  exact ⟨hlive.trans h.liveStorage, hconv.trans h.convSupported, hpartial.trans h.partialBytesIn,
    hkept.trans h.partialBytesOut, hfault.trans h.good, hframes.trans h.unreadFrames⟩

theorem State.Queues.unread (h : s.Queues fs) : s.unread = fs.length := by
  rw [← s.length_unreadFrames, h.unreadFrames]

/-- Between equal cursors nothing is unread (R50). -/
theorem State.unreadFrames_of_cursors_eq (h : s.readFrameId = s.writeFrameId) : s.unreadFrames = [] := by
  rw [← List.length_eq_zero_iff, s.length_unreadFrames, State.unread, h, Nat.add_sub_cancel_left, Nat.mod_self]

theorem State.Queues.cursors_eq (h : s.Queues []) (hlegal : s.Legal) : s.readFrameId = s.writeFrameId :=
  (hlegal.ringReady h.liveStorage).unread_eq_zero_iff.1 h.unread

/-- A `WRITE` of `k` whole frames to an empty ring that can hold them queues them up (R157). -/
theorem State.Queues.write {b : List Byte} {k : Nat} (h : s.Queues []) (hlegal : s.Legal) (hpos : 1 ≤ k)
    (hk : k ≤ s.numFrames.toNat - 1) (hb : b.length = k * s.frameSizeIn.toNat) (hlen : b.length < 2 ^ 32) :
    ∃ u, exec (.write (BitVec.ofNat 32 b.length) (some b)) s = .next (u.respond (okResponse 0#8 [])) ∧
      WriteFrame s u ∧ u.Queues (framesOf s.frameSizeIn.toNat k b) := by
  have hready := hlegal.writeReady h.liveStorage
  have hne : b ≠ [] := List.ne_nil_of_length_pos (hb ▸ Nat.mul_pos hpos hready.storage.ring.frameSizeIn_pos)
  have hwrite := exec_write_some (b := b) hlegal h.liveStorage (ofNat_length_ne_zero hne hlen)
  rw [h.good] at hwrite
  obtain ⟨hframes, -, hwhole⟩ := hready.written_whole (h.cursors_eq hlegal) h.partialBytesIn hk hb
  have hf := (hready.enqueues_written b).frame
  have hconv := hf.convSupported
  refine ⟨_, hwrite, hf, ?_⟩
  obtain ⟨⟨hkept, -⟩, ⟨-, -, -, -, hlive, -⟩, -, -, -, hfault, -⟩ := hf
  exact ⟨hlive.trans h.liveStorage, hconv.trans h.convSupported, hwhole, hkept.trans h.partialBytesOut,
    hfault.trans h.good, hframes⟩

/-- A `READ` of as many output frames as are unread takes them all (R183). -/
theorem State.Queues.read (h : s.Queues fs) (hlegal : s.Legal) (hne : fs ≠ [])
    (hfits : fs.length * s.frameSizeOut.toNat < 2 ^ 32) :
    ∃ u, exec (.read (BitVec.ofNat 32 (fs.length * s.frameSizeOut.toNat))) s =
        .next (u.respond (okResponse 0#8 (fs.map s.converted).flatten)) ∧
      ReadFrame s u ∧ u.Queues [] := by
  have hunread := h.unread
  have hread := exec_read_all hlegal h.liveStorage h.convSupported h.partialBytesOut
    (hunread.trans_ne (mt List.length_eq_zero_iff.1 hne)) (hunread.symm ▸ hfits)
  rw [hunread, h.unreadFrames, h.good] at hread
  obtain ⟨u, hu, hf, hdrained, hnone⟩ := hread
  have hconv := hf.convSupported
  refine ⟨u, hu, hf, ?_⟩
  obtain ⟨-, ⟨hpartial, -, -, -, -, hlive, -⟩, -, -, -, -, -, -, hfault, -⟩ := hf
  exact ⟨hlive.trans h.liveStorage, hconv.trans h.convSupported, hpartial.trans h.partialBytesIn, hnone,
    hfault.trans h.good, State.unreadFrames_of_cursors_eq hdrained⟩

/-- The four moves of such a `WRITE`. -/
theorem State.Queues.run_write {b : List Byte} {k : Nat} (h : s.Queues []) (hlegal : s.Legal) (hpos : 1 ≤ k)
    (hk : k ≤ s.numFrames.toNat - 1) (hb : b.length = k * s.frameSizeIn.toNat) (hlen : b.length < 2 ^ 32)
    (hissues : s.Issues p (.write (BitVec.ofNat 32 b.length) (some b)) ms) :
    ∃ t, CommandRun s t ms ∧ t.Queues (framesOf s.frameSizeIn.toNat k b) ∧ t.converted = s.converted ∧
      t.frameSizeOut = s.frameSizeOut ∧ t.trace = s.trace ++ [.response p (okResponse 0#8 [])] := by
  obtain ⟨x, hlegal', hv, htrace', hrun⟩ := hissues.body hlegal
  obtain ⟨⟨-, ⟨-, hsizeIn, hnum, -⟩, -, hsizeOut, -⟩, -⟩ := id hv
  obtain ⟨u, hwrite, hf, hqueues⟩ := (h.of_sameView hv).write hlegal' hpos (hnum.symm ▸ hk) (hsizeIn.symm ▸ hb) hlen
  rw [hsizeIn] at hqueues
  have hview := handedOver_sameView (u.respond (okResponse 0#8 [])) p (okResponse 0#8 [])
  obtain ⟨⟨-, -, -, hsizeOut', -⟩, -⟩ := id hview
  have hconverted := hf.converted.trans hv.converted
  obtain ⟨⟨-, hsize, -⟩, -, -, howner, hports, -, -, -, -, htrace⟩ := hf
  refine ⟨_, hrun hwrite hports howner, (hqueues.of_sameView (respond_sameView ..)).of_sameView hview,
    hview.converted.trans hconverted, hsizeOut'.trans (hsize.trans hsizeOut), ?_⟩
  rw [handedOver_trace, State.respond_trace, htrace, htrace']

/-- The four moves of such a `READ`. -/
theorem State.Queues.run_read (h : s.Queues fs) (hlegal : s.Legal) (hne : fs ≠ [])
    (hfits : fs.length * s.frameSizeOut.toNat < 2 ^ 32)
    (hissues : s.Issues p (.read (BitVec.ofNat 32 (fs.length * s.frameSizeOut.toNat))) ms) :
    ∃ t, CommandRun s t ms ∧ t.Queues [] ∧
      t.trace = s.trace ++ [.response p (okResponse 0#8 (fs.map s.converted).flatten)] := by
  obtain ⟨x, hlegal', hv, htrace', hrun⟩ := hissues.body hlegal
  obtain ⟨⟨-, -, -, hsizeOut, -⟩, -⟩ := id hv
  obtain ⟨u, hread, hf, hqueues⟩ := (h.of_sameView hv).read hlegal' hne (hsizeOut.symm ▸ hfits)
  rw [hsizeOut, hv.converted] at hread
  obtain ⟨-, -, -, -, -, -, howner, hports, -, -, -, -, htrace⟩ := hf
  refine ⟨_, hrun hread hports howner,
    (hqueues.of_sameView (respond_sameView ..)).of_sameView (handedOver_sameView ..), ?_⟩
  rw [handedOver_trace, State.respond_trace, htrace, htrace']

end Queues

/-- Settles O58: the `WRITE` finds a quiet block and leaves a quiet block that queues its frames, and the `READ` takes
them all. -/
theorem roundTripIsAGoodRun : Obligations.RoundTripIsAGoodRun := by
  intro s b k p q hlegal hlive hconv hempty hnone hkept hpos hk hb hlen hfits hquiet hgood hp hq hschedule
  have hqueues : s.Queues [] := ⟨hlive, hconv, hnone, hkept, hgood, State.unreadFrames_of_cursors_eq hempty⟩
  obtain ⟨t, hwrite, hqueued, hconverted, hsize, htrace⟩ := hqueues.run_write hlegal hpos hk hb hlen
    ⟨hquiet, hp, wellFormed_write _ hlen, hschedule⟩
  have hcount := length_framesOf s.frameSizeIn.toNat k b
  have hlegal' := core_run_legal hlegal hwrite.run
  obtain ⟨u, hread, hdone, htrace'⟩ := hqueued.run_read (p := q) (ms := []) hlegal'
    (List.ne_nil_of_length_pos (hcount.symm ▸ hpos)) (by rwa [hcount, hsize])
    ⟨hwrite.quiet, hq.trans_eq hwrite.ports.symm, rfl, by rw [hwrite.schedule, hcount, hsize, List.append_nil]⟩
  have hlegal'' := core_run_legal hlegal' hread.run
  refine ⟨u, ⟨core_run_append (j := 4) hwrite.run hread.run, ⟨hread.quiet, ?_⟩, hdone.good⟩, ?_,
    hdone.cursors_eq hlegal'', hdone.partialBytesIn, hdone.partialBytesOut⟩
  · rw [hread.schedule]
    exact fun m hm => nomatch hm
  · rw [htrace', htrace, hconverted, List.append_assoc]
    rfl

end Sys2Proof.Machine
end

section
/-! Faults and failures (spec/60_exceptions.md rules R215, R220, R222, R224): a command that answers `OK = 0` writes nothing
but its `FAULT` bit, and whether a run has met a fault is told alike by `FAULT` and by the responses. -/

namespace Sys2Proof.Machine

/-! ### A failure is precise (R215, R220, R222) -/

/-- Settles O42: the three ends of a command that answer `OK = 0` release the guard behind no other effect than a drawn
answer of the allocator or a `FAULT` bit, and the bit comes with `CAUSE = 6`; the other ends answer `OK = 1`. -/
theorem failuresArePrecise : Obligations.FailuresArePrecise := by
  intro i s t r h hr hfailed
  obtain ⟨c, rfl⟩ | rfl | ⟨c, rfl⟩ | ⟨d, -, rfl⟩ | ⟨d, -, rfl⟩ | ⟨len, b, u, -, hu, rfl⟩ | ⟨len, y, -, hy, rfl⟩ |
    ⟨-, rfl⟩ := exec_next h
  · exact ⟨sameBlock_refl s, rfl, fun hne => absurd rfl hne⟩
  · exact ⟨sameBlock_refl s, rfl, fun hne => absurd rfl hne⟩
  · obtain rfl := respond_ports_owner (u := s.recordFault c) rfl rfl hr
    exact ⟨sameBlock_refl s, rfl, fun _ => failResponse_cause ..⟩
  · obtain rfl := respond_ports_owner (u := s.afterDraw.commitInput d) rfl rfl hr
    exact absurd hfailed okResponse_not_failed
  · obtain rfl := respond_ports_owner (u := s.afterDraw.commitOutput d) rfl rfl hr
    exact absurd hfailed okResponse_not_failed
  · obtain ⟨-, -, -, howner, hports, -⟩ := writeBody_frame hu
    obtain rfl := respond_ports_owner hports howner hr
    exact absurd hfailed okResponse_not_failed
  · obtain ⟨-, -, -, -, -, -, howner, hports, -⟩ := readBody_frame hy
    obtain rfl := respond_ports_owner hports howner hr
    exact absurd hfailed okResponse_not_failed
  · obtain rfl := respond_ports_owner (u := s.release) rfl rfl hr
    exact absurd hfailed okResponse_not_failed

/-! ### `CAUSE = 6` and the `FAULT` bits (R222) -/

/-- From `s` a command ends in `t` with a response to its owner that has `CAUSE = 6` just when the command raised a fault,
which leaves `FAULT` not zero. -/
def TellsItsFault (s t : State) : Prop :=
  ∃ r, Answered s t r ∧
    ((r.cause ≠ causeCode .fault ∧ t.fault = s.fault) ∨ (r.cause = causeCode .fault ∧ ¬t.Good))

section Commands

variable {s t u : State}

theorem tellsItsFault_raiseFail {c : Cause} (hports : u.ports = s.ports) (howner : u.owner = s.owner)
    (hfault : u.fault = s.fault) (hc : causeCode c ≠ causeCode .fault) (h : raiseFail c u = .next t) :
    TellsItsFault s t := by
  obtain rfl := Host.Outcome.next.inj h
  exact ⟨_, answered_respond _ hports howner, .inl ⟨by rwa [failResponse_cause], hfault⟩⟩

theorem tellsItsFault_ok (out : List Byte) (hports : u.ports = s.ports) (howner : u.owner = s.owner)
    (hfault : u.fault = s.fault) : TellsItsFault s (u.respond (okResponse u.fault out)) :=
  ⟨_, answered_respond _ hports howner, .inl ⟨by rw [okResponse_cause]; decide, hfault⟩⟩

theorem tellsItsFault_raiseFault {c : FaultCode} (h : raiseFault c s = .next t) : TellsItsFault s t := by
  obtain rfl := Host.Outcome.next.inj h
  exact ⟨_, answered_respond (u := s.recordFault c) _ rfl rfl,
    .inr ⟨failResponse_cause .., setFaultBit_ne_zero s.fault c⟩⟩

theorem execInitIn_tellsItsFault {desc : Option Descriptor} (h : execInitIn desc s = .next t) : TellsItsFault s t := by
  unfold execInitIn at h
  split_ifs at h with hlive
  · exact tellsItsFault_raiseFail rfl rfl rfl (by decide) h
  · cases desc with
    | none => exact tellsItsFault_raiseFail rfl rfl rfl (by decide) h
    | some d =>
      dsimp only at h
      split_ifs at h with hvalid hdenied
      · exact tellsItsFault_raiseFail rfl rfl rfl (by decide) h
      · exact tellsItsFault_raiseFail (u := s.afterDraw) rfl rfl rfl (by decide) h
      · cases h
        exact tellsItsFault_ok (u := s.afterDraw.commitInput d) [] rfl rfl rfl

theorem execInitOut_tellsItsFault {desc : Option Descriptor} (h : execInitOut desc s = .next t) :
    TellsItsFault s t := by
  unfold execInitOut at h
  cases desc with
  | none => exact tellsItsFault_raiseFail rfl rfl rfl (by decide) h
  | some d =>
    dsimp only at h
    split_ifs at h with hvalid hdenied
    · exact tellsItsFault_raiseFail rfl rfl rfl (by decide) h
    · exact tellsItsFault_raiseFail (u := s.afterDraw) rfl rfl rfl (by decide) h
    · cases h
      exact tellsItsFault_ok (u := s.afterDraw.commitOutput d) [] rfl rfl rfl

theorem execWrite_tellsItsFault {len : Word} {bytes : Option (List Byte)} (h : execWrite len bytes s = .next t) :
    TellsItsFault s t := by
  unfold execWrite at h
  split_ifs at h with hfree hlen
  · exact tellsItsFault_raiseFail rfl rfl rfl (by decide) h
  · exact tellsItsFault_raiseFail rfl rfl rfl (by decide) h
  · cases bytes with
    | none => exact tellsItsFault_raiseFail rfl rfl rfl (by decide) h
    | some b =>
      obtain ⟨y, hy, rfl⟩ := finish_next.1 h
      obtain ⟨u, hu, rfl⟩ := except_map_ok.1 hy
      obtain ⟨-, -, -, howner, hports, hfault, -⟩ := writeBody_frame hu
      exact tellsItsFault_ok [] hports howner hfault

/-- Only the pre-check of `READ` raises a fault (R171). -/
theorem execRead_tellsItsFault {len : Word} (h : execRead len s = .next t) : TellsItsFault s t := by
  unfold execRead at h
  split_ifs at h with hfree hlen hnoOut hnoConv
  · exact tellsItsFault_raiseFail rfl rfl rfl (by decide) h
  · exact tellsItsFault_raiseFail rfl rfl rfl (by decide) h
  · exact tellsItsFault_raiseFault h
  · exact tellsItsFault_raiseFault h
  · obtain ⟨y, hy, rfl⟩ := finish_next.1 h
    obtain ⟨-, -, -, -, -, -, howner, hports, hfault, -⟩ := readBody_frame hy
    exact tellsItsFault_ok y.2 hports howner hfault

theorem exec_tellsItsFault {i : Instr} (h : exec i s = .next t) : TellsItsFault s t := by
  cases i with
  | initIn desc => exact execInitIn_tellsItsFault h
  | initOut desc => exact execInitOut_tellsItsFault h
  | write len bytes => exact execWrite_tellsItsFault h
  | read len => exact execRead_tellsItsFault h
  | reset =>
    cases h
    exact tellsItsFault_ok (u := s.release) [] rfl rfl rfl

/-- The body of a command hands out no response: that is the hand-over's (R134, R205). -/
theorem exec_trace {i : Instr} (h : exec i s = .next t) :
    ∃ os, t.trace = s.trace ++ os ∧ ∀ o ∈ os, o.answersFault = false := by
  obtain ⟨c, rfl⟩ | rfl | ⟨c, rfl⟩ | ⟨d, -, rfl⟩ | ⟨d, -, rfl⟩ | ⟨len, b, u, -, hu, rfl⟩ | ⟨len, y, -, hy, rfl⟩ |
    ⟨-, rfl⟩ := exec_next h
  · exact ⟨[], (List.append_nil _).symm, List.forall_mem_nil _⟩
  · exact ⟨[], (List.append_nil _).symm, List.forall_mem_nil _⟩
  · exact ⟨[], (List.append_nil _).symm, List.forall_mem_nil _⟩
  · exact ⟨_, rfl, by simp⟩
  · refine ⟨_, rfl, ?_⟩
    cases hlive : s.livePfo <;> simp [hlive]
  · obtain ⟨-, -, -, -, -, -, -, -, -, htrace⟩ := writeBody_frame hu
    exact ⟨[], htrace.trans (List.append_nil _).symm, List.forall_mem_nil _⟩
  · obtain ⟨-, -, -, -, -, -, -, -, -, -, -, -, htrace⟩ := readBody_frame hy
    exact ⟨[], htrace.trans (List.append_nil _).symm, List.forall_mem_nil _⟩
  · exact ⟨_, rfl, fun _ => answersFault_frees⟩

end Commands

/-! ### What was answered, move by move (R211) -/

/-- One entry of a list is replaced by one that has the property: the others and the old entry had it. -/
theorem forall_mem_iff_set {α : Type} {P : α → Prop} {l : List α} {p : Nat} {a b : α} (ha : l[p]? = some a) (hb : P b) :
    (∀ x ∈ l, P x) ↔ P a ∧ ∀ x ∈ l.set p b, P x := by
  obtain ⟨hp, hget⟩ := List.getElem?_eq_some_iff.1 ha
  refine ⟨fun h => ⟨h a (List.mem_of_getElem? ha), fun x hx => ?_⟩, fun ⟨hPa, h⟩ x hx => ?_⟩
  · obtain hmem | rfl := List.mem_or_eq_of_mem_set hx
    · exact h x hmem
    · exact hb
  · have hback : (l.set p b).set p a = l := by rw [List.set_set, ← hget, List.set_getElem_self]
    rw [← hback] at hx
    obtain hmem | rfl := List.mem_or_eq_of_mem_set hx
    · exact h x hmem
    · exact hPa

section Moves

variable {s t u : State} {p : Nat} {ph ph' : Phase} {os : List Output}

/-- A port takes a phase without `CAUSE = 6`, and its old phase had `CAUSE = 6` only where it is now handed out: what was
answered is the same. -/
theorem noFaultAnswered_iff (hp : s.ports[p]? = some ph) (hports : t.ports = s.ports.set p ph')
    (htrace : t.trace = s.trace ++ os) (hnew : ph'.answersFault = false)
    (hold : ph.answersFault = false ↔ ∀ o ∈ os, o.answersFault = false) :
    t.NoFaultAnswered ↔ s.NoFaultAnswered := by
  rw [State.NoFaultAnswered, State.NoFaultAnswered, forall_mem_iff_set hp hnew, hports, htrace, List.forall_mem_append,
    hold]
  tauto

/-- A port that responds with `CAUSE = 6` shows that a fault was answered. -/
theorem not_noFaultAnswered {r : Response} (hp : s.ports[p]? = some ph) (hports : t.ports = s.ports.set p (.responding r))
    (hr : r.cause = causeCode .fault) : ¬t.NoFaultAnswered := by
  rintro ⟨hphases, -⟩
  have hmem : .responding r ∈ t.ports := hports ▸ List.mem_set (List.getElem?_eq_some_iff.1 hp).1 _
  have hnone := hphases _ hmem
  rw [answersFault_responding, hr, beq_self_eq_true] at hnone
  cases hnone

/-! ### `FAULT` and the answers tell the same (R222, R224) -/

/-- Between `s` and `t` either no fault was met, which leaves both forms of the end condition as they were, or one was,
and both forms show it. -/
def FaultsShown (s t : State) : Prop :=
  ((t.Good ↔ s.Good) ∧ (t.NoFaultAnswered ↔ s.NoFaultAnswered)) ∨ (¬t.Good ∧ ¬t.NoFaultAnswered)

theorem faultsShown_refl (s : State) : FaultsShown s s := .inl ⟨.rfl, .rfl⟩

theorem FaultsShown.trans (h : FaultsShown s t) (h' : FaultsShown t u) : FaultsShown s u := by
  obtain ⟨hgood', hnone'⟩ | hmet' := h'
  · obtain ⟨hgood, hnone⟩ | ⟨hbad, hmet⟩ := h
    · exact .inl ⟨hgood'.trans hgood, hnone'.trans hnone⟩
    · exact .inr ⟨mt hgood'.1 hbad, mt hnone'.1 hmet⟩
  · exact .inr hmet'

theorem FaultsShown.good (h : FaultsShown s t) (ht : t.Good) : s.Good := by
  obtain ⟨hgood, -⟩ | ⟨hbad, -⟩ := h
  · exact hgood.1 ht
  · exact absurd ht hbad

theorem FaultsShown.good_iff (h : FaultsShown s t) (hgood : s.Good) (hnone : s.NoFaultAnswered) :
    t.Good ↔ t.NoFaultAnswered := by
  obtain ⟨hgood', hnone'⟩ | ⟨hbad, hmet⟩ := h
  · exact iff_of_true (hgood'.2 hgood) (hnone'.2 hnone)
  · exact iff_of_false hbad hmet

/-- A port takes a phase without `CAUSE = 6`, and `FAULT` is kept. -/
theorem faultsShown_of_set (hp : s.ports[p]? = some ph) (hports : t.ports = s.ports.set p ph')
    (htrace : t.trace = s.trace ++ os) (hfault : t.fault = s.fault) (hnew : ph'.answersFault = false)
    (hold : ph.answersFault = false ↔ ∀ o ∈ os, o.answersFault = false) : FaultsShown s t :=
  .inl ⟨by rw [State.Good, hfault], noFaultAnswered_iff hp hports htrace hnew hold⟩

/-- A port that had no response pending takes a phase without `CAUSE = 6`. -/
theorem faultsShown_setPort (hp : s.ports[p]? = some ph) (hold : ph.answersFault = false)
    (hnew : ph'.answersFault = false) : FaultsShown s (s.setPort p ph') :=
  faultsShown_of_set (os := []) hp rfl (List.append_nil _).symm rfl hnew (iff_of_true hold (List.forall_mem_nil _))

theorem exec_faultsShown {i : Instr} {req : Request} (hp : s.ports[s.owner]? = some (.holding req))
    (h : exec i s = .next t) : FaultsShown s t := by
  obtain ⟨r, ⟨-, -, hports⟩, ⟨hcause, hfault⟩ | ⟨hcause, hbad⟩⟩ := exec_tellsItsFault h
  · obtain ⟨os, htrace, hos⟩ := exec_trace h
    exact faultsShown_of_set hp hports htrace hfault (by simpa using hcause) (iff_of_true rfl hos)
  · exact .inr ⟨hbad, not_noFaultAnswered hp hports hcause⟩

theorem applyMove_faultsShown {m : Move} (h : applyMove m s = .next t) (hm : m ≠ .hardReset) : FaultsShown s t := by
  obtain ⟨p, req, -, h⟩ | ⟨p, -, h⟩ | ⟨i, -, hfetch, h⟩ | ⟨p, -, h⟩ | ⟨hreset, -⟩ | ⟨n, -, rfl⟩ | ⟨n, v, -, rfl⟩ :=
    applyMove_next h
  · obtain ⟨hp, ⟨i, -, rfl⟩ | ⟨e, -, -, rfl⟩⟩ := presentRequest_next h
    · exact faultsShown_setPort hp rfl rfl
    · refine faultsShown_setPort hp rfl ?_
      rw [answersFault_responding, failResponse_cause]
      decide
  · obtain ⟨req, hp, ⟨-, rfl⟩ | ⟨-, rfl⟩⟩ := tryAcquire_next h
    · exact faultsShown_refl _
    · exact faultsShown_setPort hp rfl rfl
  · obtain ⟨req, hheld, -⟩ := fetch_ok.1 hfetch
    exact exec_faultsShown (heldRequest_some.1 hheld).2 h
  · obtain ⟨r, hp, rfl⟩ := handOver_next h
    exact faultsShown_of_set hp rfl rfl rfl rfl (by simp)
  · exact absurd hreset hm
  · refine .inl ⟨.rfl, and_congr_right fun _ => ?_⟩
    simp [State.emit, or_imp, forall_and]
  · exact faultsShown_refl _

/-- The moves of a scheduled run are those of the schedule, so none of them is a hardware reset. -/
theorem core_run_faultsShown {k : Nat} (hk : k ≤ s.schedule.length) (hm : ∀ m ∈ s.schedule.take k, m ≠ .hardReset)
    (h : core.run k s = .next t) : FaultsShown s t := by
  induction k generalizing s with
  | zero =>
    cases h
    exact faultsShown_refl _
  | succ k ih =>
    obtain ⟨u, hu, hrest⟩ := core_run_succ.1 h
    cases hs : s.schedule with
    | nil => simp [hs] at hk
    | cons m ms =>
      rw [hs, List.take_succ_cons, List.forall_mem_cons] at hm
      rw [step_of_schedule hs] at hu
      obtain ⟨⟨-, hschedule, -⟩, -⟩ := applyMove_keepsRecord hu
      rw [afterMove_schedule_of_schedule hs] at hschedule
      have hfirst : FaultsShown s u := applyMove_faultsShown (s := s.afterMove) hu hm.1
      refine hfirst.trans (ih ?_ (hschedule ▸ hm.2) hrest)
      rw [hs] at hk
      exact hschedule ▸ Nat.le_of_succ_le_succ hk

end Moves

/-- Settles O57: step by step `FAULT` and the responses show the same, since a response with `CAUSE = 6` stays at its port
until it is handed over. -/
theorem goodRunsAnswerNoFault : Obligations.GoodRunsAnswerNoFault := by
  intro k s t hk hm hrun
  have hshown := core_run_faultsShown hk hm hrun
  exact ⟨hshown.good, hshown.good_iff⟩

end Sys2Proof.Machine
end

section
/-! Hardware reset (spec/70_reset_and_hazards.md rules R240, R241) and how it differs from the `RESET` command
(rule R242). -/

namespace Sys2Proof.Machine

variable {s : State}

/-! ### The two resets compared (R242) -/

/-- Each register and memory a command can write has one value after both: the one `RESET` writes is its reset value
(R51, R130, R132). -/
theorem State.release_sameBlock_hardReset (s : State) : SameBlock s.release s.hardReset :=
  ⟨⟨rfl, rfl⟩, ⟨rfl, rfl, rfl, rfl, rfl, rfl, rfl, rfl, rfl⟩, rfl, rfl, rfl, rfl, rfl⟩

/-- An answer concerns the owner's port only (R205). -/
theorem Answered.ports_of_ne {t : State} {r : Response} {p : Nat} (h : Answered s t r) (hp : p ≠ s.owner) :
    t.ports[p]? = s.ports[p]? := by
  obtain ⟨-, -, hports⟩ := h
  rw [hports, List.getElem?_set_ne hp.symm]

/-- Settles O16: the answer that ends `RESET` concerns neither the block nor a port other than the owner's. -/
theorem resetAgainstHardReset : Obligations.ResetAgainstHardReset := by
  intro s
  have hanswered : Answered s (s.release.respond (okResponse s.fault [])) (okResponse s.fault []) :=
    answered_respond _ s.release_ports s.release_owner
  exact ⟨_, exec_reset s, hanswered, s.release_sameBlock_hardReset, s.release_fault, s.hardReset_fault,
    fun _ hp => hanswered.ports_of_ne hp, fun _ hph => List.eq_of_mem_replicate hph⟩

/-! ### Hardware reset as a step (R240, R241) -/

/-- Hardware reset is enabled in every state (R240). -/
theorem step_of_hardReset (h : s.nextMove = .hardReset) : step s = .next s.afterMove.hardReset := by
  rw [step, h, applyMove]

/-- What hardware reset keeps, the parameters and the environment's own choices, is no register and no memory. -/
theorem State.hardReset_sameBlock (s : State) : SameBlock (State.resetWith s.cfg) s.hardReset :=
  sameBlock_refl (State.resetWith s.cfg)

/-- The regions to hand back do not depend on the moves. -/
theorem State.afterMove_frees (s : State) : s.afterMove.frees = s.frees := rfl

/-- Settles O46: the ports are written without a look at their phases, so no command is answered, and what is handed out is
the free events of the live regions. -/
theorem hardResetRestoresTheResetState : Obligations.HardResetRestoresTheResetState := by
  intro s hmove
  refine ⟨_, step_of_hardReset hmove, s.afterMove.hardReset_sameBlock, s.afterMove.hardReset_fault,
    s.afterMove.hardReset_lock, s.afterMove.hardReset_ports, s.afterMove.hardReset_cfg, ?_⟩
  rw [s.afterMove.hardReset_trace, s.afterMove_trace, s.afterMove_frees]

end Sys2Proof.Machine
end
